-- ==== Sys2Proof/Word.lean ====
section
/-! DEFINITION. The words of the block: 64-bit data words, 32-bit control words, 16-bit indices
(00_scope.md R7). Bit 0 is the least significant bit, as in `BitVec`. -/

namespace Sys2Proof

/-- A W64 (R7): a binary64 pattern or an unsigned integer, as the rule at hand says. -/
abbrev W64 := BitVec 64

/-- A W32 (R7): a command word or a response word. -/
abbrev W32 := BitVec 32

/-- A 16-bit unsigned integer: the window's write pointer (10_state.md R35). -/
abbrev W16 := BitVec 16

end Sys2Proof
end

