-- ==== Sys2Proof/Config.lean ====
section
/-! DEFINITION. What is fixed for a block: the parameters of 00_scope.md R6 and the constants of
R8 and R10, and the one free value. -/

namespace Sys2Proof.Config

/-- `NPER` (R6): oscillator channels. -/
def nper : Nat := 32

/-- `NCFG` (R6): entries of the configuration table, 264 = 6 + 1 + 1 + 32·8. -/
def ncfg : Nat := 264

/-- `WCAP_MAX` (R6, 93 U10): an OPEN parameter, "default 6000". DESIGN CHOICE, unsafe for runs from
reset: `State.reset` starts with this default (log 1); the parameter itself is the field
`State.wcapMax`, so that a statement about every state covers every value of it. -/
def wcapMaxDefault : Nat := 6000

/-- The bounds R6 sets on the parameter: 1 ≤ WCAP_MAX ≤ 65535. -/
def wcapMaxLegal (n : Nat) : Bool := 1 ≤ n && n ≤ 65535

/-- +0.0 (R8, R10). -/
def posZero : W64 := 0x0000000000000000#64

/-- −0.0 (R8). -/
def negZero : W64 := 0x8000000000000000#64

/-- 1.0 (R10). -/
def one : W64 := 0x3FF0000000000000#64

/-- 2.0 (R10). -/
def two : W64 := 0x4000000000000000#64

/-- The class threshold 5.0 cm/s (R10, 43_classifier.md R168). -/
def threshold1 : W64 := 0x4014000000000000#64

/-- The class threshold 15.0 cm/s. -/
def threshold2 : W64 := 0x402E000000000000#64

/-- The class threshold 50.0 cm/s. -/
def threshold3 : W64 := 0x4049000000000000#64

/-- The class threshold 100.0 cm/s. -/
def threshold4 : W64 := 0x4059000000000000#64

/-- +∞ (R8). -/
def posInf : W64 := 0x7FF0000000000000#64

/-- −∞ (R8). -/
def negInf : W64 := 0xFFF0000000000000#64

/-- FREE VALUE: the sign bit and the 51 payload bits of the NaN that operation number `op` returns for its operands.
IEEE 754 leaves them open (93 U13); no rule looks at them, and no NaN is ever stored by a tick or returned
(60_exceptions.md R227; DESIGN CHOICE, safe, log 4). -/
opaque nanBits : (op : Nat) → (a b : W64) → BitVec 52

/-- The NaN of an operation: exponent 0x7FF, the first fraction bit set, the rest free. Operation 0 is `fadd`
(and `fsub`, which is one), 1 `fmul`, 2 `fdiv`, 3 `fsqrt`. -/
def quietNaN (op : Nat) (a b : W64) : W64 :=
  (nanBits op a b).extractLsb' 51 1 ++ 0xFFF#12 ++ (nanBits op a b).extractLsb' 0 51

end Sys2Proof.Config
end

