-- ==== Sys2Proof/Machine/Binary64.lean ====
section
/-! DEFINITION. IEEE 754 binary64 as 00_scope.md R8 to R10 fix it: one rounding per operation, to nearest with
ties to even, overflow to infinity, gradual underflow.

Every finite value is a whole number of units of 2^−1074, so the exact result of an operation is an integer
or a ratio of integers in that unit, and `roundMag` rounds it once. R9 names the IEEE 754 rules for the sign
of a zero and for non-finite operands without writing them out: those arms are PRESUMED from IEEE 754
(unsafe if misremembered; log 12). -/

namespace Sys2Proof.Machine

/-- The sign bit, bit 63 (R8). -/
def signBit (w : W64) : Bool := 2 ^ 63 ≤ w.toNat

/-- The biased exponent, bits 62:52 (R8). -/
def expField (w : W64) : Nat := w.toNat / 2 ^ 52 % 2 ^ 11

/-- The fraction, bits 51:0 (R8). -/
def fracField (w : W64) : Nat := w.toNat % 2 ^ 52

/-- `isfinite(w)` of R8: w[62:52] ≠ 0x7FF. -/
def isFinite (w : W64) : Bool := expField w != 0x7FF

/-- A NaN (R8): e = 0x7FF and f ≠ 0. -/
def isNaN (w : W64) : Bool := expField w == 0x7FF && fracField w != 0

/-- An infinity (R8): e = 0x7FF and f = 0. -/
def isInf (w : W64) : Bool := expField w == 0x7FF && fracField w == 0

/-- A zero of either sign (R8). -/
def isZero (w : W64) : Bool := expField w == 0 && fracField w == 0

/-- The absolute value in units of 2^−1074 (R8): f when e = 0, (2^52 + f)·2^(e−1) otherwise. The same formula
places an infinity above every finite value. -/
def magnitude (w : W64) : Nat :=
  if expField w = 0 then fracField w else (2 ^ 52 + fracField w) * 2 ^ (expField w - 1)

/-- The value in units of 2^−1074, with its sign; −0.0 and +0.0 are both 0. -/
def units (w : W64) : Int := if signBit w then -(magnitude w : Int) else (magnitude w : Int)

/-- The sign bit `neg` above the 63 bits `bits`. -/
def pack (neg : Bool) (bits : Nat) : W64 := BitVec.ofNat 64 ((if neg then 2 ^ 63 else 0) + bits)

/-- Bits 62:0 of an infinity (R8): e = 0x7FF, f = 0. -/
def infinityBits : Nat := 0x7FF0000000000000

/-- The ratio `num / d` rounded to the nearest integer, ties to even. -/
def roundEven (num d : Nat) : Nat :=
  if 2 * (num % d) > d || (2 * (num % d) == d && (num / d) % 2 == 1) then num / d + 1 else num / d

/-- The integer logarithm of `n` to base 2, for every `n` below 2^(2^k), by halving. -/
def log2Below : Nat → Nat → Nat
  | 0, _ => 0
  | k + 1, n => if 2 ^ (2 ^ k) ≤ n then 2 ^ k + log2Below k (n / 2 ^ (2 ^ k)) else log2Below k n

/-- The integer logarithm of `n` to base 2, for every `n` below 2^8192. No operands reach further, and a
greater value overflows to infinity whatever its logarithm. -/
def floorLog2 (n : Nat) : Nat := log2Below 13 n

/-- How many binary places above the unit the last bit of a 53-bit significand of `num / den` stands. -/
def scaleOf (num den : Nat) : Nat := floorLog2 (num / den) - 52

/-- Bits 62:0 of the binary64 nearest to `num / den` units, ties to even (R9). With the significand
rounded to `m` at scale `q` these bits are `q·2^52 + m`: a significand below 2^52 is a subnormal, and a
carry out of the significand moves into the exponent. Past the largest finite value: infinity. -/
def roundMag (num den : Nat) : Nat :=
  min (scaleOf num den * 2 ^ 52 + roundEven num (den * 2 ^ scaleOf num den)) infinityBits

/-- The operand with its sign bit inverted. -/
def fneg (a : W64) : W64 := pack (!signBit a) (a.toNat % 2 ^ 63)

/-- The sum of two finite operands. An exact zero is −0.0 only when both operands are −0.0. -/
def faddFinite (a b : W64) : W64 :=
  if units a + units b = 0 then
    (if signBit a && signBit b then Config.negZero else Config.posZero)
  else pack (units a + units b < 0) (roundMag (units a + units b).natAbs 1)

/-- `fadd(a, b)` (R9). -/
def fadd (a b : W64) : W64 :=
  if isNaN a || isNaN b then Config.quietNaN 0 a b
  else if isInf a then (if isInf b && signBit a != signBit b then Config.quietNaN 0 a b else a)
  else if isInf b then b
  else faddFinite a b

/-- `fsub(a, b)` (R9): the sum of `a` and `b` with its sign inverted. -/
def fsub (a b : W64) : W64 := fadd a (fneg b)

/-- `fmul(a, b)` (R9). -/
def fmul (a b : W64) : W64 :=
  if isNaN a || isNaN b then Config.quietNaN 1 a b
  else if isInf a || isInf b then
    (if isZero a || isZero b then Config.quietNaN 1 a b
     else pack (signBit a != signBit b) infinityBits)
  else pack (signBit a != signBit b) (roundMag (magnitude a * magnitude b) (2 ^ 1074))

/-- `fdiv(a, b)` (R9). -/
def fdiv (a b : W64) : W64 :=
  if isNaN a || isNaN b then Config.quietNaN 2 a b
  else if isInf a then
    (if isInf b then Config.quietNaN 2 a b else pack (signBit a != signBit b) infinityBits)
  else if isInf b then pack (signBit a != signBit b) 0
  else if isZero b then
    (if isZero a then Config.quietNaN 2 a b else pack (signBit a != signBit b) infinityBits)
  else pack (signBit a != signBit b) (roundMag (magnitude a * 2 ^ 1074) (magnitude b))

/-- Newton's iteration from above towards the integer square root of `n`. -/
def isqrtFrom : Nat → Nat → Nat → Nat
  | 0, _, x => x
  | fuel + 1, n, x => if (x + n / x) / 2 < x then isqrtFrom fuel n ((x + n / x) / 2) else x

/-- The integer square root, the largest `r` with r·r ≤ n, for every `n` below 2^8192. -/
def isqrt (n : Nat) : Nat :=
  if n ≤ 1 then n else isqrtFrom (2 ^ (floorLog2 n / 2 + 1)) n (2 ^ (floorLog2 n / 2 + 1))

/-- Twice the square root of `n`, with an odd last bit where the root is not exact: on the same side of
every rounding boundary as the root itself. -/
def stickyRoot (n : Nat) : Nat := 2 * isqrt n + (if isqrt n * isqrt n = n then 0 else 1)

/-- `fsqrt(a)` (R9). The root of `x` units is the root of `x·2^1074`, in units. -/
def fsqrt (a : W64) : W64 :=
  if isNaN a then Config.quietNaN 3 a a
  else if isZero a then a
  else if signBit a then Config.quietNaN 3 a a
  else if isInf a then a
  else pack false (roundMag (stickyRoot (magnitude a * 2 ^ 1074)) 2)

/-- `flt(a, b)` (R10): false if either is NaN; −0.0 is not less than +0.0. R10 does not write out the infinities: they lie
beyond every finite value on their side (PRESUMED, log 12). -/
def flt (a b : W64) : Bool := !isNaN a && !isNaN b && units a < units b

/-- `fmax(a, b)` (R10). -/
def fmax (a b : W64) : W64 := if flt a b then b else a

end Sys2Proof.Machine
end

