-- ==== Sys2Proof/Syntax.lean ====
section
/-! DEFINITION. The commands (30_encoding.md R82), the packets that carry them (R80) and the responses
(R81). -/

namespace Sys2Proof

/-- One command of R82, one constructor per row of the opcode table. An index is the natural number the
assembler line writes (R87); that it fits 16 bits is `Instr.wellFormed`. A command that ignores
`cmd.data` (R80) does not carry it. -/
inductive Instr where
  /-- NOP (40_configuration.md R110). -/
  | nop
  /-- RESET (R111). -/
  | reset
  /-- WRCFG idx, data (R112). -/
  | wrcfg (idx : Nat) (data : W64)
  /-- INIT (R113). -/
  | init
  /-- LDS k, data (41_signal_conditioner.md R130). -/
  | lds (idx : Nat) (data : W64)
  /-- UPDATE (R131). -/
  | update
  /-- RDSVA j (44_read_commands.md R180). -/
  | rdsva (idx : Nat)
  /-- RDACC k (R181). -/
  | rdacc (idx : Nat)
  /-- RDVEL k (R182). -/
  | rdvel (idx : Nat)
  /-- RDMAX (R183). -/
  | rdmax
  /-- RDWIN i (R184). -/
  | rdwin (idx : Nat)
  /-- RDCLASS (R185). -/
  | rdclass
  /-- RDSTAT (R186). -/
  | rdstat
  deriving DecidableEq, Repr

/-- A command packet (R80): 32 bits of `cmd_word` and 64 bits of `cmd_data`. -/
structure Packet where
  word : W32
  data : W64
  deriving DecidableEq, Repr

/-- A response packet (R81): 32 bits of `rsp_word` and 64 bits of `rsp_data`. -/
structure Response where
  word : W32
  data : W64
  deriving DecidableEq, Repr

/-- Why a packet is no command (R85). Each is answered with IllegalCommand (60_exceptions.md R224). -/
inductive Illegal where
  /-- R85 step 1: `cmd.rsv` is not 0x00. -/
  | reservedField
  /-- R85 step 2: `cmd.op` is one of the 243 reserved opcodes of R86. -/
  | reservedOpcode
  /-- R85 step 3: the command takes no index and `cmd.idx` is not 0x0000. -/
  | indexNotZero
  deriving DecidableEq, Repr

end Sys2Proof
end

