-- ==== Sys2Proof/Machine/State.lean ====
section
/-! DEFINITION. The architectural state of the block (10_state.md R20), its reset value (R41), and the
outcomes of a step. -/

namespace Sys2Proof.Machine

/-- `STATE` (R21). Its three legal values; "the value 3 never occurs", so it has no constructor here
(DEDUCED, safe, log 10). -/
inductive Mode where
  /-- 0: before Construct has succeeded; no instance exists. -/
  | unconfigured
  /-- 1: an instance exists, before its first tick. -/
  | uninitialized
  /-- 2: steady per-tick recursion. -/
  | running
  deriving DecidableEq, Repr

/-- A 3-vector: components 0 and 1 are horizontal, 2 is vertical (00_scope.md R6). -/
structure Vec3 where
  c0 : W64
  c1 : W64
  c2 : W64
  deriving DecidableEq, Repr

/-- A 2×2 matrix, `m<row><column>` (10_state.md R28, R33). -/
structure Mat2 where
  m00 : W64
  m01 : W64
  m10 : W64
  m11 : W64
  deriving DecidableEq, Repr

/-- A bank of `n` like elements: a list together with the proof that its length is `n`. -/
structure Table (α : Type) (n : Nat) where
  entries : List α
  length_eq : entries.length = n
  deriving DecidableEq, Repr

/-- `n` copies of one element. -/
def Table.fill {α : Type} (n : Nat) (a : α) : Table α n := ⟨List.replicate n a, List.length_replicate⟩

/-- The window store WIN (R35), the block's only memory: pairs (index, entry), indices strictly rising, no
entry equal to what an unlisted index reads as, which is +0.0, the reset value of every WIN entry (R41).
`Memory.wf` of Machine/Ops.lean says the form holds. -/
abbrev Memory := List (Nat × W64)

/-- What the host does at the port next (20_memory.md R60, 70_reset_and_hazards.md R250). -/
inductive HostEvent where
  /-- The host presents a command packet. -/
  | command (p : Packet)
  /-- `rst` is 1 at a rising edge of `clk`. -/
  | hardwareReset
  deriving DecidableEq, Repr

/-- The state: R20's list, then three fields of the model's own. -/
structure State where
  /-- `STATE` (R21). -/
  mode : Mode
  /-- `ERRFLAGS` (R22). -/
  errflags : BitVec 8
  /-- `SX[0..2]` (R23). -/
  sx : Vec3
  /-- `SVALID` (R23). -/
  svalid : BitVec 3
  /-- `CFG[0..263]` (R24). -/
  cfg : Table W64 264
  /-- `CW[0..263]` (R24). -/
  cw : Table Bool 264
  /-- `REF[0..2]` (R29). -/
  ref : Vec3
  /-- `X0[0..2]` (R30): the offset acceleration of the latest tick. -/
  x0 : Vec3
  /-- `X1[0..2]` (R30): one tick earlier. -/
  x1 : Vec3
  /-- `X2[0..2]` (R30): two ticks earlier. -/
  x2 : Vec3
  /-- `Y0[0..2]` (R31): the filtered acceleration of the latest tick. -/
  y0 : Vec3
  /-- `Y1[0..2]` (R31): one tick earlier. -/
  y1 : Vec3
  /-- `V[0..2]` (R32). -/
  v : Vec3
  /-- `OSC[0..31]` (R33): row 0 displacement, row 1 velocity, column k the axis. -/
  osc : Table Mat2 32
  /-- `SVA[0..31]` (R34). -/
  sva : Table W64 32
  /-- `WIN` (R35). -/
  win : Memory
  /-- `WPTR` (R35). -/
  wptr : W16
  /-- `MAX30` (R36). -/
  max30 : W64
  /-- `LCLASS` (R37). -/
  lclass : BitVec 3
  /-- The MODEL's own field: the block's build parameter `WCAP_MAX` (00_scope.md R6, 93 U10), which no
  command writes (log 1). -/
  wcapMax : Nat
  /-- The MODEL's own field: what the host presents at the port, first event first (R38, R60; log 5). -/
  pending : List HostEvent
  /-- The MODEL's own field: the responses delivered so far, oldest first (R60, R257; log 5). -/
  delivered : List Response
  deriving DecidableEq, Repr

/-- Why the machine would stop with a fault. It has no constructor: "there is no double-fault condition and
no error that stops the block: after any error every command is accepted as before" (60_exceptions.md R230).
The six errors of R221 are outcomes of commands and are next states. -/
inductive Fault where
  deriving DecidableEq, Repr

/-- Why an instruction would have no meaning. -/
inductive Refusal where
  /-- An instruction without a meaning, raised by an arm of `exec` (safe: it stops). No arm raises it: every
  instruction of the table has its meaning. -/
  | notModelled (mnemonic : String)
  deriving DecidableEq, Repr

/-- What one step or one meaning answers. -/
abbrev Result := Host.Outcome State Fault Refusal

/-- Three times +0.0. -/
def Vec3.zero : Vec3 := ⟨Config.posZero, Config.posZero, Config.posZero⟩

/-- Four times +0.0. -/
def Mat2.zero : Mat2 := ⟨Config.posZero, Config.posZero, Config.posZero, Config.posZero⟩

/-- The machine right after hardware reset (R41, 70_reset_and_hazards.md R250). The data of CFG has no
stated value: zero (DESIGN CHOICE, unsafe in form, unobservable by R250; log 2). `wcapMax` is the spec's
default (DESIGN CHOICE, log 1); nothing is pending and nothing delivered (log 6). -/
def State.reset : State where
  mode := .unconfigured
  errflags := 0x00#8
  sx := ⟨0#64, 0#64, 0#64⟩
  svalid := 0b000#3
  cfg := Table.fill 264 0#64
  cw := Table.fill 264 false
  ref := Vec3.zero
  x0 := Vec3.zero
  x1 := Vec3.zero
  x2 := Vec3.zero
  y0 := Vec3.zero
  y1 := Vec3.zero
  v := Vec3.zero
  osc := Table.fill 32 Mat2.zero
  sva := Table.fill 32 Config.posZero
  win := []
  wptr := 0#16
  max30 := Config.posZero
  lclass := 0#3
  wcapMax := Config.wcapMaxDefault
  pending := []
  delivered := []

end Sys2Proof.Machine
end

