-- ==== Sys2Proof/Machine/Flags.lean ====
section
/-! DEFINITION. The errors and their codes (60_exceptions.md R221), the flag fields (10_state.md R21 to R23), and
the packed words that carry them (30_encoding.md R81, 44_read_commands.md R186). -/

namespace Sys2Proof.Machine

/-- The six errors of R221. -/
inductive ErrorCode where
  /-- Code 1, raised by INIT (R222). -/
  | invalidConfiguration
  /-- Code 2, raised by LDS and UPDATE (R223). -/
  | invalidInput
  /-- Code 3, raised by the decoder (R224). -/
  | illegalCommand
  /-- Code 4 (R225). -/
  | badState
  /-- Code 5 (R226). -/
  | badIndex
  /-- Code 6, raised by UPDATE (R227). -/
  | numericFault
  deriving DecidableEq, Repr

/-- The status code 0, OK (R221). -/
def statusOk : BitVec 8 := 0#8

/-- The status code of an error (R221). -/
def ErrorCode.code : ErrorCode → BitVec 8
  | .invalidConfiguration => 1#8
  | .invalidInput => 2#8
  | .illegalCommand => 3#8
  | .badState => 4#8
  | .badIndex => 5#8
  | .numericFault => 6#8

/-- `ERRFLAGS[n] <- 1` for the error of code n (R22, R229). -/
def setErrFlag (flags : BitVec 8) (e : ErrorCode) : BitVec 8 := flags ||| (1#8 <<< e.code.toNat)

/-- `SVALID[k] <- 1` (R23, 41_signal_conditioner.md R130). -/
def setValid (valid : BitVec 3) (k : Nat) : BitVec 3 := valid ||| (1#3 <<< k)

/-- The two bits of `STATE` (R21). -/
def Mode.code : Mode → BitVec 2
  | .unconfigured => 0#2
  | .uninitialized => 1#2
  | .running => 2#2

/-- `rsp_word` (R81): status in bits 31:24, zero in bits 23:3, class in bits 2:0. -/
def responseWord (status : BitVec 8) (cls : BitVec 3) : W32 := status ++ 0#21 ++ cls

/-- The status word of R186: WCAP, zero, ERRFLAGS, LCLASS, SVALID, STATE, from the top. -/
def statusWord (wcap : BitVec 32) (flags : BitVec 8) (cls valid : BitVec 3) (mode : Mode) : W64 :=
  wcap ++ 0#16 ++ flags ++ cls ++ valid ++ mode.code

end Sys2Proof.Machine
end

