-- ==== Sys2Proof/Machine/Ops.lean ====
section
/-! DEFINITION. The named operations over banks, vectors, the window store and the state, with the entry of an
error (60_exceptions.md R229) as one shared operation. The block has no return from an error (R220, R230). -/

namespace Sys2Proof.Machine

/-- Element `i` of a bank. -/
def Table.get {α : Type} {n : Nat} (t : Table α n) (i : Fin n) : α :=
  t.entries[i.val]'(t.length_eq.symm ▸ i.isLt)

/-- A bank with element `i` replaced. -/
def Table.set {α : Type} {n : Nat} (t : Table α n) (i : Fin n) (a : α) : Table α n :=
  ⟨t.entries.set i.val a, (List.length_set ..).trans t.length_eq⟩

/-- The bank whose element `i` is `f i`. -/
def Table.ofFn {α : Type} {n : Nat} (f : Fin n → α) : Table α n :=
  ⟨(List.finRange n).map f, (List.length_map f).trans List.length_finRange⟩

/-- Component `k` of a 3-vector. -/
def Vec3.get (u : Vec3) : Fin 3 → W64
  | 0 => u.c0
  | 1 => u.c1
  | 2 => u.c2

/-- A 3-vector with component `k` replaced. -/
def Vec3.set (u : Vec3) (k : Fin 3) (a : W64) : Vec3 :=
  match k with
  | 0 => ⟨a, u.c1, u.c2⟩
  | 1 => ⟨u.c0, a, u.c2⟩
  | 2 => ⟨u.c0, u.c1, a⟩

/-- Element (row, column) of a matrix. -/
def Mat2.get (m : Mat2) : Fin 2 → Fin 2 → W64
  | 0, 0 => m.m00
  | 0, 1 => m.m01
  | 1, 0 => m.m10
  | 1, 1 => m.m11

/-- What index `i` of the window store reads as; +0.0 where nothing is listed (10_state.md R35, R41). -/
def Memory.read : Memory → Nat → W64
  | [], _ => Config.posZero
  | (j, x) :: rest, i => if i = j then x else Memory.read rest i

/-- The cell of index `i` in front of a store that lists only higher indices; +0.0 is not listed. -/
def Memory.cons (i : Nat) (x : W64) (rest : Memory) : Memory :=
  if x = Config.posZero then rest else (i, x) :: rest

/-- `WIN[i] <- x`, keeping the canonical form. -/
def Memory.write : Memory → Nat → W64 → Memory
  | [], i, x => Memory.cons i x []
  | (j, y) :: rest, i, x =>
    if i < j then Memory.cons i x ((j, y) :: rest)
    else if i = j then Memory.cons i x rest
    else (j, y) :: Memory.write rest i x

/-- `WIN[i] <- +0.0` for every i below `n` (40_configuration.md R115). -/
def Memory.clearBelow (m : Memory) (n : Nat) : Memory := m.filter fun c => n ≤ c.1

/-- The canonical form: indices strictly rising, no listed +0.0. -/
def Memory.wf : Memory → Bool
  | [] => true
  | (j, x) :: rest => x != Config.posZero && rest.all (fun c => j < c.1) && Memory.wf rest

/-- `Respond(status, data)` (30_encoding.md R81): one response, with LCLASS as the command leaves it. -/
def State.respond (s : State) (status : BitVec 8) (data : W64) : State :=
  { s with delivered := s.delivered ++ [⟨responseWord status s.lclass, data⟩] }

/-- `raise e` (R229): the flag bit of the error, a response with its code and data 0, and nothing else. -/
def State.raise (s : State) (e : ErrorCode) : State :=
  State.respond { s with errflags := setErrFlag s.errflags e } e.code 0#64

/-- Every element at its reset value (R41). The data of CFG, which R251 lets the RESET command keep or lose,
is zeroed (DESIGN CHOICE, unobservable, 93 U4; log 3). The parameter and the port are not touched. -/
def State.toReset (s : State) : State :=
  { State.reset with wcapMax := s.wcapMax, pending := s.pending, delivered := s.delivered }

/-- The state test of a command permitted only in UNCONFIGURED (R225). -/
def beforeInstance (s : State) (k : Result) : Result :=
  if s.mode = .unconfigured then k else .next (s.raise .badState)

/-- The state test of a command permitted only while an instance exists (R225). -/
def inInstance (s : State) (k : Result) : Result :=
  if s.mode = .unconfigured then .next (s.raise .badState) else k

/-- A read command with an index (44_read_commands.md R180 to R182, R184): the state test, the index test,
the answer. -/
def publish (s : State) (inRange : Bool) (value : W64) : Result :=
  inInstance s (if inRange then .next (s.respond statusOk value) else .next (s.raise .badIndex))

end Sys2Proof.Machine
end

