-- ==== Sys2Proof/Machine/Operands.lean ====
section
/-! DEFINITION. The index operands and the named views of the configuration table (10_state.md R24 to R28,
20_memory.md R61, R62, 30_encoding.md R83, R84, R87). -/

namespace Sys2Proof.Machine

/-- The index of `OA[j][r][c]`: 8 + 8j + 2r + c (R24, R87). -/
def oaIndex (j : Fin 32) (r c : Fin 2) : Fin 264 := ⟨8 + 8 * j + 2 * r + c, by omega⟩

/-- The index of `OB[j][r][c]`: 12 + 8j + 2r + c (R24, R87). -/
def obIndex (j : Fin 32) (r c : Fin 2) : Fin 264 := ⟨12 + 8 * j + 2 * r + c, by omega⟩

/-- `HPB0` (R25): multiplies the current offset. -/
def State.hpb0 (s : State) : W64 := s.cfg.get 0

/-- `HPB1` (R25): multiplies the offset one tick earlier. -/
def State.hpb1 (s : State) : W64 := s.cfg.get 1

/-- `HPB2` (R25): multiplies the offset two ticks earlier. -/
def State.hpb2 (s : State) : W64 := s.cfg.get 2

/-- `HPA0` (R25): required to be 1.0, never used by a tick. -/
def State.hpa0 (s : State) : W64 := s.cfg.get 3

/-- `HPA1` (R25): multiplies the filter output one tick earlier, subtracted. -/
def State.hpa1 (s : State) : W64 := s.cfg.get 4

/-- `HPA2` (R25): multiplies the filter output two ticks earlier, subtracted. -/
def State.hpa2 (s : State) : W64 := s.cfg.get 5

/-- `DT` (R26): the sample period. -/
def State.dt (s : State) : W64 := s.cfg.get 6

/-- `CFG[7][31:0]`, the bits that hold WCAP (R27). -/
def State.wcapField (s : State) : BitVec 32 := (s.cfg.get 7).extractLsb' 0 32

/-- `WCAP` (R27): the capacity of the rolling window in ticks. -/
def State.wcap (s : State) : Nat := s.wcapField.toNat

/-- `OA[j]` (R28): the transition matrix of channel j. -/
def State.oa (s : State) (j : Fin 32) : Mat2 :=
  ⟨s.cfg.get (oaIndex j 0 0), s.cfg.get (oaIndex j 0 1), s.cfg.get (oaIndex j 1 0), s.cfg.get (oaIndex j 1 1)⟩

/-- `OB[j]` (R28): the forcing matrix of channel j. -/
def State.ob (s : State) (j : Fin 32) : Mat2 :=
  ⟨s.cfg.get (obIndex j 0 0), s.cfg.get (obIndex j 0 1), s.cfg.get (obIndex j 1 0), s.cfg.get (obIndex j 1 1)⟩

/-- `SVA[i]` for an index of OUT-SVA (R61). An index of 32 or more reaches no caller: RDSVA raises BadIndex. -/
def State.svaAt (s : State) (i : Nat) : W64 := if h : i < 32 then s.sva.get ⟨i, h⟩ else Config.posZero

/-- Component `i` of a vector for an index of OUT-ACC or OUT-VEL (R61). An index of 3 or more reaches no
caller: RDACC and RDVEL raise BadIndex. -/
def Vec3.at (u : Vec3) (i : Nat) : W64 := if h : i < 3 then u.get ⟨i, h⟩ else Config.posZero

/-- The ring address of logical window entry `i` (R62): the sum WPTR + i without overflow, reduced by one
conditional subtraction of WCAP. -/
def windowAddress (wptr wcap i : Nat) : Nat := if wptr + i ≥ wcap then wptr + i - wcap else wptr + i

/-- Logical window entry `i`, 0 the oldest (R62). -/
def State.windowEntry (s : State) (i : Nat) : W64 := s.win.read (windowAddress s.wptr.toNat s.wcap i)

end Sys2Proof.Machine
end

