-- ==== Sys2Proof/Machine/Configuration.lean ====
section
/-! DEFINITION. The configuration and control commands (40_configuration.md R110 to R115). -/

namespace Sys2Proof.Machine

/-- `CfgValid()` condition 1 (R114): every entry written since the last reset. -/
def State.allWritten (s : State) : Bool := s.cw.entries.all id

/-- `CfgValid()` condition 2: every entry finite except entry 7. -/
def State.coefficientsFinite (s : State) : Bool :=
  (s.cfg.entries.eraseIdx 7).all isFinite

/-- `CfgValid()` condition 5: CFG[7][63:32] = 0 and 1 ≤ WCAP ≤ WCAP_MAX. -/
def State.wcapValid (s : State) : Bool :=
  (s.cfg.get 7).extractLsb' 32 32 == 0#32 && 1 ≤ s.wcap && s.wcap ≤ s.wcapMax

/-- `CfgValid()` (R114). -/
def State.cfgValid (s : State) : Bool :=
  s.allWritten && s.coefficientsFinite && s.hpa0 == Config.one && flt Config.posZero s.dt && s.wcapValid

/-- `CFG[i] <- data; CW[i] <- 1` (R112). -/
def State.writeCfg (s : State) (i : Fin 264) (data : W64) : State :=
  { s with cfg := s.cfg.set i data, cw := s.cw.set i true }

/-- `ZeroRunning()` (R115): the running state at +0.0, with WIN[0..WCAP−1]. -/
def State.zeroRunning (s : State) : State :=
  { s with
    ref := Vec3.zero, x0 := Vec3.zero, x1 := Vec3.zero, x2 := Vec3.zero, y0 := Vec3.zero, y1 := Vec3.zero,
    v := Vec3.zero, osc := Table.fill 32 Mat2.zero, sva := Table.fill 32 Config.posZero,
    win := s.win.clearBelow s.wcap, wptr := 0#16, max30 := Config.posZero, lclass := 0#3 }

/-- What a successful INIT makes (R113): zeroed running state, no staged component, UNINITIALIZED. -/
def State.createInstance (s : State) : State :=
  { s.zeroRunning with svalid := 0b000#3, mode := .uninitialized }

/-- NOP (R110). -/
def execNop (s : State) : Result := .next (s.respond statusOk 0#64)

/-- RESET (R111, 70_reset_and_hazards.md R251). -/
def execReset (s : State) : Result := .next (s.toReset.respond statusOk 0#64)

/-- WRCFG (R112). -/
def execWrcfg (idx : Nat) (data : W64) (s : State) : Result :=
  beforeInstance s
    (if h : idx < 264 then .next ((s.writeCfg ⟨idx, h⟩ data).respond statusOk 0#64)
     else .next (s.raise .badIndex))

/-- INIT (R113). -/
def execInit (s : State) : Result :=
  beforeInstance s
    (if s.cfgValid then .next (s.createInstance.respond statusOk 0#64)
     else .next (s.raise .invalidConfiguration))

end Sys2Proof.Machine
end

