-- ==== Sys2Proof/Machine/Conditioner.lean ====
section
/-! DEFINITION. The signal conditioner: stages 1 to 3 of a tick (41_signal_conditioner.md R132 to R138). -/

namespace Sys2Proof.Machine

/-- Every component finite. -/
def Vec3.allFinite (u : Vec3) : Bool := isFinite u.c0 && isFinite u.c1 && isFinite u.c2

/-- `ReferenceSelect(first, r)` (R132). -/
def referenceSelect (first : Bool) (r ref : Vec3) : Vec3 := if first then r else ref

/-- `OffsetRemove(r, ref')` (R133). -/
def offsetRemove (r ref : Vec3) : Vec3 := ⟨fsub r.c0 ref.c0, fsub r.c1 ref.c1, fsub r.c2 ref.c2⟩

/-- The difference equation of R135 for one component, as t1, t2, t3, t4 and Y0' nest there. -/
def highPass1 (b0 b1 b2 a1 a2 x0 x1 x2 y1 y2 : W64) : W64 :=
  fsub (fsub (fadd (fadd (fmul b0 x0) (fmul b1 x1)) (fmul b2 x2)) (fmul a1 y1)) (fmul a2 y2)

/-- `HighPass(X0', X0, X1, Y0, Y1)` (R134, R135): the three taps are the new offset and the stored X0, X1;
the two output taps are the stored Y0, Y1. All three components take the same coefficients. -/
def highPass (s : State) (x0' : Vec3) : Vec3 :=
  ⟨highPass1 s.hpb0 s.hpb1 s.hpb2 s.hpa1 s.hpa2 x0'.c0 s.x0.c0 s.x1.c0 s.y0.c0 s.y1.c0,
   highPass1 s.hpb0 s.hpb1 s.hpb2 s.hpa1 s.hpa2 x0'.c1 s.x0.c1 s.x1.c1 s.y0.c1 s.y1.c1,
   highPass1 s.hpb0 s.hpb1 s.hpb2 s.hpa1 s.hpa2 x0'.c2 s.x0.c2 s.x1.c2 s.y0.c2 s.y1.c2⟩

/-- The trapezoidal rule of R137 for one component: V + ((Y0 + Y0')·DT)/2. -/
def integrate1 (dt v y y' : W64) : W64 := fadd v (fdiv (fmul (fadd y y') dt) Config.two)

/-- `Integrate(V, Y0, Y0')` (R137). -/
def integrate (s : State) (y0' : Vec3) : Vec3 :=
  ⟨integrate1 s.dt s.v.c0 s.y0.c0 y0'.c0, integrate1 s.dt s.v.c1 s.y0.c1 y0'.c1,
   integrate1 s.dt s.v.c2 s.y0.c2 y0'.c2⟩

end Sys2Proof.Machine
end

