-- ==== Sys2Proof/Machine/Bank.lean ====
section
/-! DEFINITION. The oscillator bank: the third stage of a tick as 42_oscillator_bank.md counts them
(R150 to R154). -/

namespace Sys2Proof.Machine

/-- Every element finite. -/
def Mat2.allFinite (m : Mat2) : Bool := isFinite m.m00 && isFinite m.m01 && isFinite m.m10 && isFinite m.m11

/-- One element of the new oscillator state (R151): (a0·d + a1·v) + (b0·fp + b1·fc). -/
def bankElement (a0 a1 b0 b1 d v fp fc : W64) : W64 :=
  fadd (fadd (fmul a0 d) (fmul a1 v)) (fadd (fmul b0 fp) (fmul b1 fc))

/-- The new state of one channel (R150, R151): `o` is the old state, `fp` and `fc` the previous and the
current filtered acceleration; component 2 is not used. -/
def oscNext (a b o : Mat2) (fp fc : Vec3) : Mat2 :=
  ⟨bankElement a.m00 a.m01 b.m00 b.m01 o.m00 o.m10 fp.c0 fc.c0,
   bankElement a.m00 a.m01 b.m00 b.m01 o.m01 o.m11 fp.c1 fc.c1,
   bankElement a.m10 a.m11 b.m10 b.m11 o.m00 o.m10 fp.c0 fc.c0,
   bankElement a.m10 a.m11 b.m10 b.m11 o.m01 o.m11 fp.c1 fc.c1⟩

/-- The unscaled Euclidean norm of R153. -/
def norm2 (p q : W64) : W64 := fsqrt (fadd (fmul p p) (fmul q q))

/-- `SVA'[j]` (R152, R153) from the new state of the channel and the new ground velocity. -/
def svaOf (o : Mat2) (vg : Vec3) : W64 := norm2 (fadd o.m10 vg.c0) (fadd o.m11 vg.c1)

/-- `OSC'` (R151), all 32 channels, each from its own old state and matrices (R154). -/
def bankState (s : State) (y0' : Vec3) : Table Mat2 32 :=
  Table.ofFn fun j => oscNext (s.oa j) (s.ob j) (s.osc.get j) s.y0 y0'

/-- `SVA'` (R153), all 32 channels in ascending period order. -/
def bankSpectrum (osc' : Table Mat2 32) (v' : Vec3) : Table W64 32 :=
  Table.ofFn fun j => svaOf (osc'.get j) v'

end Sys2Proof.Machine
end

