-- ==== Sys2Proof/Machine/Classifier.lean ====
section
/-! DEFINITION. The rolling-window maximum tracker and classifier: the last stage of a tick
(43_classifier.md R165 to R169). -/

namespace Sys2Proof.Machine

/-- `TM'` (R165): `fmax` folded over SVA'[1..31] from SVA'[0]. -/
def tickMax (sva : Table W64 32) : W64 := sva.entries.tail.foldl fmax (sva.get 0)

/-- The write pointer after an insert (R166). -/
def nextPointer (wptr : W16) (wcap : Nat) : W16 := if wptr.toNat + 1 = wcap then 0#16 else wptr + 1#16

/-- `WindowMax()` (R167): `fmax` folded over WIN[1..WCAP−1] from WIN[0]. -/
def windowMax (win : Memory) (wcap : Nat) : W64 :=
  (List.range' 1 (wcap - 1)).foldl (fun m i => fmax m (win.read i)) (win.read 0)

/-- `Classify(m)` (R168): strict thresholds in ascending order, first match wins. -/
def classify (m : W64) : BitVec 3 :=
  if flt m Config.threshold1 then 0#3
  else if flt m Config.threshold2 then 1#3
  else if flt m Config.threshold3 then 2#3
  else if flt m Config.threshold4 then 3#3
  else 4#3

end Sys2Proof.Machine
end

