-- ==== Sys2Proof/Machine/Sample.lean ====
section
/-! DEFINITION. Sample delivery and the tick: LDS and UPDATE (41_signal_conditioner.md R130, R131). -/

namespace Sys2Proof.Machine

/-- `SX[k] <- data; SVALID[k] <- 1` (R130). -/
def State.stage (s : State) (k : Fin 3) (data : W64) : State :=
  { s with sx := s.sx.set k data, svalid := setValid s.svalid k.val }

/-- `SVALID <- 0` (R131). -/
def State.unstage (s : State) : State := { s with svalid := 0b000#3 }

/-- The primed values of one tick (R131 step 2): computed, not yet state (R40). -/
structure Tick where
  /-- `ref'` -/
  ref : Vec3
  /-- `X0'` -/
  x0 : Vec3
  /-- `Y0'` -/
  y0 : Vec3
  /-- `V'` -/
  v : Vec3
  /-- `OSC'` -/
  osc : Table Mat2 32
  /-- `SVA'` -/
  sva : Table W64 32
  deriving DecidableEq, Repr

/-- `ref'` of the staged sample (R132): the sample itself at the first tick. -/
def State.tickRef (s : State) : Vec3 := referenceSelect (s.mode == .uninitialized) s.sx s.ref

/-- `X0'` of the staged sample (R133). -/
def State.tickX0 (s : State) : Vec3 := offsetRemove s.sx s.tickRef

/-- `Y0'` of the staged sample (R135). -/
def State.tickY0 (s : State) : Vec3 := highPass s s.tickX0

/-- `V'` of the staged sample (R137). -/
def State.tickV (s : State) : Vec3 := integrate s s.tickY0

/-- `OSC'` of the staged sample (R151). -/
def State.tickOsc (s : State) : Table Mat2 32 := bankState s s.tickY0

/-- `SVA'` of the staged sample (R153). -/
def State.tickSva (s : State) : Table W64 32 := bankSpectrum s.tickOsc s.tickV

/-- The tick of the staged sample (R131 step 2). -/
def State.tick (s : State) : Tick :=
  ⟨s.tickRef, s.tickX0, s.tickY0, s.tickV, s.tickOsc, s.tickSva⟩

/-- The numeric check (R131 step 3, 60_exceptions.md R227): every value about to be written is finite. -/
def Tick.allFinite (t : Tick) : Bool :=
  t.x0.allFinite && t.y0.allFinite && t.v.allFinite && t.osc.entries.all Mat2.allFinite &&
    t.sva.entries.all isFinite

/-- WIN after `WindowInsert(TM')` (43_classifier.md R166). -/
def State.insertedWindow (s : State) (t : Tick) : Memory := s.win.write s.wptr.toNat (tickMax t.sva)

/-- MAX30 after the insert (R167). -/
def State.insertedMax (s : State) (t : Tick) : W64 := windowMax (s.insertedWindow t) s.wcap

/-- The commit (R131 step 4), all of it from the values before the commit. -/
def State.commit (s : State) (t : Tick) : State :=
  { s with
    mode := .running, ref := t.ref,
    x2 := s.x1, x1 := s.x0, x0 := t.x0,
    y1 := s.y0, y0 := t.y0,
    v := t.v, osc := t.osc, sva := t.sva,
    win := s.insertedWindow t, wptr := nextPointer s.wptr s.wcap,
    max30 := s.insertedMax t, lclass := classify (s.insertedMax t) }

/-- `Respond(OK, zext_64(LCLASS))` (43_classifier.md R169, 44_read_commands.md R185). -/
def State.respondClass (s : State) : State := s.respond statusOk (s.lclass.setWidth 64)

/-- The staged sample is complete and finite (R131 step 1). -/
def State.sampleReady (s : State) : Bool := s.svalid == 0b111#3 && s.sx.allFinite

/-- LDS (R130). -/
def execLds (idx : Nat) (data : W64) (s : State) : Result :=
  inInstance s
    (if h : idx < 3 then .next ((s.stage ⟨idx, h⟩ data).respond statusOk 0#64)
     else .next (s.raise .invalidInput))

/-- UPDATE (R131): admission, computation, numeric check, commit. -/
def execUpdate (s : State) : Result :=
  inInstance s
    (if s.sampleReady then
      (if s.tick.allFinite then .next (s.unstage.commit s.tick).respondClass
       else .next (s.unstage.raise .numericFault))
     else .next (s.unstage.raise .invalidInput))

end Sys2Proof.Machine
end

