-- ==== Sys2Proof/Machine/Reads.lean ====
section
/-! DEFINITION. The read commands (44_read_commands.md R180 to R187). -/

namespace Sys2Proof.Machine

/-- RDSVA (R180). -/
def execRdsva (idx : Nat) (s : State) : Result := publish s (idx < 32) (s.svaAt idx)

/-- RDACC (R181). -/
def execRdacc (idx : Nat) (s : State) : Result := publish s (idx < 3) (s.y0.at idx)

/-- RDVEL (R182). -/
def execRdvel (idx : Nat) (s : State) : Result := publish s (idx < 3) (s.v.at idx)

/-- RDMAX (R183). -/
def execRdmax (s : State) : Result := inInstance s (.next (s.respond statusOk s.max30))

/-- RDWIN (R184). -/
def execRdwin (idx : Nat) (s : State) : Result := publish s (idx < s.wcap) (s.windowEntry idx)

/-- RDCLASS (R185). -/
def execRdclass (s : State) : Result := inInstance s (.next s.respondClass)

/-- Bits 63:32 of the status word (R186): WCAP, 0 in UNCONFIGURED. -/
def State.statusWcap (s : State) : BitVec 32 := if s.mode = .unconfigured then 0#32 else s.wcapField

/-- RDSTAT (R186). -/
def execRdstat (s : State) : Result :=
  .next (s.respond statusOk (statusWord s.statusWcap s.errflags s.lclass s.svalid s.mode))

end Sys2Proof.Machine
end

