-- ==== Sys2Proof/Machine/Dispatch.lean ====
section
/-! DEFINITION. One arm per command of the opcode table. -/

namespace Sys2Proof.Machine

/-- What a command does (30_encoding.md R82). -/
def exec (i : Instr) (s : State) : Host.Outcome State Fault Refusal :=
  match i with
  | .nop => Sys2Proof.Machine.execNop s
  | .reset => Sys2Proof.Machine.execReset s
  | .wrcfg idx data => Sys2Proof.Machine.execWrcfg idx data s
  | .init => Sys2Proof.Machine.execInit s
  | .lds idx data => Sys2Proof.Machine.execLds idx data s
  | .update => Sys2Proof.Machine.execUpdate s
  | .rdsva idx => Sys2Proof.Machine.execRdsva idx s
  | .rdacc idx => Sys2Proof.Machine.execRdacc idx s
  | .rdvel idx => Sys2Proof.Machine.execRdvel idx s
  | .rdmax => Sys2Proof.Machine.execRdmax s
  | .rdwin idx => Sys2Proof.Machine.execRdwin idx s
  | .rdclass => Sys2Proof.Machine.execRdclass s
  | .rdstat => Sys2Proof.Machine.execRdstat s

end Sys2Proof.Machine
end

