-- ==== Sys2Proof/WellFormed.lean ====
section
/-! DEFINITION. Which commands have an encoding. -/

namespace Sys2Proof

/-- An index operand fits the 16 bits of `cmd.idx` (30_encoding.md R83, R87). An index outside its index
space is a legal encoding that raises an error when executed (R82), so no smaller bound stands here. -/
def Instr.wellFormed : Instr → Bool
  | .nop => true
  | .reset => true
  | .wrcfg idx _ => idx < 65536
  | .init => true
  | .lds idx _ => idx < 65536
  | .update => true
  | .rdsva idx => idx < 65536
  | .rdacc idx => idx < 65536
  | .rdvel idx => idx < 65536
  | .rdmax => true
  | .rdwin idx => idx < 65536
  | .rdclass => true
  | .rdstat => true

end Sys2Proof
end

