-- ==== Sys2Proof/Decode.lean ====
section
/-! DEFINITION. The decoder of 30_encoding.md R85, total on every packet, and the encoder of R87. -/

namespace Sys2Proof

/-- `cmd.op` (R80): bits 31:24 of the command word. -/
def Packet.op (p : Packet) : Nat := (p.word.extractLsb' 24 8).toNat

/-- `cmd.rsv` (R80): bits 23:16. -/
def Packet.rsv (p : Packet) : Nat := (p.word.extractLsb' 16 8).toNat

/-- `cmd.idx` (R80): bits 15:0, an unsigned integer used as it stands (R83). -/
def Packet.idx (p : Packet) : Nat := (p.word.extractLsb' 0 16).toNat

/-- R85 step 3, for a command that takes no index. -/
def decodeNoIndex (p : Packet) (i : Instr) : Except Illegal Instr :=
  if p.idx = 0 then .ok i else .error .indexNotZero

/-- R85 steps 2 to 4: the command `cmd.op` selects (R82), or a reserved opcode (R86). -/
def decodeOpcode (p : Packet) : Except Illegal Instr :=
  match p.op with
  | 0x00 => decodeNoIndex p .nop
  | 0x01 => decodeNoIndex p .reset
  | 0x02 => .ok (.wrcfg p.idx p.data)
  | 0x03 => decodeNoIndex p .init
  | 0x04 => .ok (.lds p.idx p.data)
  | 0x05 => decodeNoIndex p .update
  | 0x10 => .ok (.rdsva p.idx)
  | 0x11 => .ok (.rdacc p.idx)
  | 0x12 => .ok (.rdvel p.idx)
  | 0x13 => decodeNoIndex p .rdmax
  | 0x14 => .ok (.rdwin p.idx)
  | 0x15 => decodeNoIndex p .rdclass
  | 0x16 => decodeNoIndex p .rdstat
  | _ => .error .reservedOpcode

/-- The decoder of R85: the reserved field first, then the opcode, then the index. -/
def decode (p : Packet) : Except Illegal Instr :=
  if p.rsv ≠ 0 then .error .reservedField else decodeOpcode p

/-- `{op, 0x00, idx}` of R87. -/
def commandWord (op : BitVec 8) (idx : Nat) : W32 := op ++ 0x00#8 ++ BitVec.ofNat 16 idx

/-- The packet of a command (R87): index 0 and data 0 where the command has none. -/
def encode : Instr → Packet
  | .nop => ⟨commandWord 0x00#8 0, 0⟩
  | .reset => ⟨commandWord 0x01#8 0, 0⟩
  | .wrcfg idx data => ⟨commandWord 0x02#8 idx, data⟩
  | .init => ⟨commandWord 0x03#8 0, 0⟩
  | .lds idx data => ⟨commandWord 0x04#8 idx, data⟩
  | .update => ⟨commandWord 0x05#8 0, 0⟩
  | .rdsva idx => ⟨commandWord 0x10#8 idx, 0⟩
  | .rdacc idx => ⟨commandWord 0x11#8 idx, 0⟩
  | .rdvel idx => ⟨commandWord 0x12#8 idx, 0⟩
  | .rdmax => ⟨commandWord 0x13#8 0, 0⟩
  | .rdwin idx => ⟨commandWord 0x14#8 idx, 0⟩
  | .rdclass => ⟨commandWord 0x15#8 0, 0⟩
  | .rdstat => ⟨commandWord 0x16#8 0, 0⟩

/-- The packet whose bits are `w`, numbered as spec/opcode_table.json numbers them: `cmd_word` is bits
31:0 and `cmd_data` goes on at bit 32 (DEDUCED, log 8). Bits at or above `nbits` are 0. -/
def packetOfTableWord (nbits w : Nat) : Packet :=
  ⟨BitVec.ofNat 32 (w % 2 ^ nbits), BitVec.ofNat 64 ((w % 2 ^ nbits) / 2 ^ 32)⟩

/-- The instruction the decoder reads from a table word, `none` where the packet is illegal. -/
def decodeTableWord (nbits w : Nat) : Option Instr :=
  match decode (packetOfTableWord nbits w) with
  | .ok i => some i
  | .error _ => none

end Sys2Proof
end

