-- ==== Sys2Proof/Machine/Port.lean ====
section
/-! DEFINITION. The host port (20_memory.md R60): what the block takes next. The signals are not represented;
a command is a whole packet (log 5). -/

namespace Sys2Proof.Machine

/-- What the port offers, and the state once it has been taken. -/
inductive Fetched where
  /-- No event: the block "is idle and holds its state" (60_exceptions.md R236). -/
  | idle
  /-- Hardware reset (70_reset_and_hazards.md R250). -/
  | hardwareReset (s : State)
  /-- A packet that is no command (30_encoding.md R85). -/
  | illegal (why : Illegal) (s : State)
  /-- A command. -/
  | run (i : Instr) (s : State)
  deriving DecidableEq, Repr

/-- The first event is taken off the port. -/
def State.accept (s : State) (rest : List HostEvent) : State := { s with pending := rest }

/-- A packet, decoded before any state test (R85, 60_exceptions.md R228). -/
def fetchPacket (p : Packet) (s : State) : Fetched :=
  match decode p with
  | .ok i => .run i s
  | .error why => .illegal why s

/-- The next event of the port. -/
def fetch (s : State) : Fetched :=
  match s.pending with
  | [] => .idle
  | .hardwareReset :: rest => .hardwareReset (s.accept rest)
  | .command p :: rest => fetchPacket p (s.accept rest)

/-- The host presents a packet ahead of everything else it has pending. -/
def State.present (s : State) (p : Packet) : State := { s with pending := .command p :: s.pending }

end Sys2Proof.Machine
end

