-- ==== Sys2Proof/Machine/Step.lean ====
section
/-! DEFINITION. One step: the block takes one event of the host port and completes it (20_memory.md R66). -/

namespace Sys2Proof.Machine

/-- One step. A command runs to its response; an illegal packet raises IllegalCommand in every state
(30_encoding.md R85); hardware reset puts every element at its reset value without a response
(70_reset_and_hazards.md R250); with no event the block holds its state. -/
def step (s : State) : Host.Outcome State Fault Refusal :=
  match fetch s with
  | .idle => .next s
  | .hardwareReset s' => .next s'.toReset
  | .illegal _ s' => .next (s'.raise .illegalCommand)
  | .run i s' => exec i s'

/-- The state with the packet of a table word presented at the port, so that the next step takes exactly
it. The block loads no program of its own (log 6). -/
def State.withFetchWord (s : State) (nbits w : Nat) : State := s.present (packetOfTableWord nbits w)

end Sys2Proof.Machine
end

