-- ==== Sys2Proof/Machine/Pseudo.lean ====
section
/-! DEFINITION. The assembler's values and the pseudo-instructions (30_encoding.md R87, R88): the command lists they
stand for, and what the host makes of the responses. A pseudo-instruction is not atomic: each of its commands is a
command of its own. -/

namespace Sys2Proof.Machine

/-- `u(n)` of R87: the integer zero-extended to 64 bits. R87 does not say what an integer of 2^64 or more gives: it is
kept modulo 2^64 (DESIGN CHOICE, log 16). -/
def valueU (n : Nat) : W64 := BitVec.ofNat 64 n

/-- `f(±num/den)` of R87: the binary64 nearest to the literal, ties to even. R87 does not say what a literal gives that
rounds past the largest finite value, nor which zero a negative literal that rounds to zero gives: an infinity of the
literal's sign, and −0.0 (DESIGN CHOICE, log 15). -/
def valueF (neg : Bool) (num den : Nat) : W64 := pack neg (roundMag (num * 2 ^ 1074) den)

/-- `CONSTRUCT table` (R88): WRCFG for every entry in ascending order, then INIT. -/
def construct (table : Table W64 264) : List Instr :=
  table.entries.zipIdx.map (fun c => Instr.wrcfg c.2 c.1) ++ [Instr.init]

/-- The result of CONSTRUCT (R88): the response of INIT if every WRCFG returned OK, otherwise the first error.
The responses of the 265 commands, in order. -/
def constructResult : List Response → Option Response
  | [] => none
  | [r] => some r
  | r :: r' :: rest => if r.word.extractLsb' 24 8 = statusOk then constructResult (r' :: rest) else some r

/-- The data words of the responses, in order: the result of a pseudo-instruction made of reads (R88). -/
def dataWords (responses : List Response) : List W64 := responses.map Response.data

/-- `SAMPLE x, y, z` (R88). -/
def sample (x y z : W64) : List Instr := [.lds 0 x, .lds 1 y, .lds 2 z, .update]

/-- The result of SAMPLE (R88): the response of UPDATE, the last of its four. -/
def sampleResult (responses : List Response) : Option Response := responses.getLast?

/-- `GETSPECTRUM` (R88). -/
def getSpectrum : List Instr := (List.range 32).map Instr.rdsva

/-- The result of GETSPECTRUM (R88): the 32 data words in ascending order. -/
def getSpectrumResult (responses : List Response) : List W64 := dataWords responses

/-- `GETACC` (R88). -/
def getAcc : List Instr := [.rdacc 0, .rdacc 1, .rdacc 2]

/-- The three reals of GETACC. -/
def getAccResult (responses : List Response) : List W64 := dataWords responses

/-- `GETVEL` (R88). -/
def getVel : List Instr := [.rdvel 0, .rdvel 1, .rdvel 2]

/-- The three reals of GETVEL. -/
def getVelResult (responses : List Response) : List W64 := dataWords responses

/-- `GETMAX` (R88). -/
def getMax : List Instr := [.rdmax]

/-- The scalar of GETMAX. -/
def getMaxResult (responses : List Response) : List W64 := dataWords responses

/-- WCAP as SNAPSHOT learns it: bits 63:32 of the status word in the response to RDSTAT (R88). -/
def snapshotLength (status : Response) : Nat := (status.data.extractLsb' 32 32).toNat

/-- `SNAPSHOT`, its first command (R88). -/
def snapshotHead : List Instr := [.rdstat]

/-- `SNAPSHOT`, the reads that follow once RDSTAT has been answered with `status` (R88). -/
def snapshotReads (status : Response) : List Instr := (List.range (snapshotLength status)).map Instr.rdwin

/-- `SNAPSHOT` as one list, RDSTAT being answered with `status` (R88). -/
def snapshot (status : Response) : List Instr := snapshotHead ++ snapshotReads status

/-- The result of SNAPSHOT (R88): the data words of the reads, oldest first; the first response is RDSTAT's. -/
def snapshotResult (responses : List Response) : List W64 := dataWords responses.tail

/-- What the host presents to have a command list run. -/
def hostEvents (program : List Instr) : List HostEvent := program.map fun i => HostEvent.command (encode i)

end Sys2Proof.Machine
end

