-- ==== Sys2Proof/Machine/HostContract.lean ====
section
/-! DEFINITION. The exact, rational part of the host's coefficient contract (45_host_coefficient_contract.md R201,
R202, R207, R208). It binds the host, not the block: `exec` and `step` use none of it. The transcendental
formulas R203 to R206 are outside the block by 00_scope.md R5: what they give is an argument here. -/

namespace Sys2Proof.Machine

/-- The period p_j of channel j in tenths of a second: 16 + 2j (R201). -/
def periodTenths (j : Fin 32) : Nat := 16 + 2 * j

/-- A sample rate as the host is given it: `num/den` Hz, or a rate that is not finite where `den` is 0. A rate that is
no ratio of integers is refused in any case, because 30·sampleRate is then no integer (R202; DESIGN CHOICE, log 17). -/
structure SampleRate where
  num : Int
  den : Nat
  deriving DecidableEq, Repr

/-- The rate is a positive finite number (R202, R208). -/
def SampleRate.isPositive (r : SampleRate) : Bool := 0 < r.num && r.den != 0

/-- `DT` for a sample rate (R202): the binary64 nearest to 1/sampleRate seconds, and no value for a rate that is not
positive and finite (R208). -/
def hostDt (r : SampleRate) : Option W64 := if r.isPositive then some (valueF false r.den r.num.toNat) else none

/-- `WCAP` for a sample rate (R202): 30·sampleRate where the rate is positive and finite and this is an integer
between 1 and `wcapMax`, and no value for any other rate (R208). -/
def hostWcap (wcapMax : Nat) (r : SampleRate) : Option Nat :=
  if r.isPositive && (30 * r.num.toNat) % r.den == 0 && 30 * r.num.toNat / r.den ≤ wcapMax then
    some (30 * r.num.toNat / r.den)
  else none

/-- What the host computes for one sample rate (R200). -/
structure Coefficients where
  /-- `HPB0`, `HPB1`, `HPB2` -/
  hpb : Vec3
  /-- `HPA0`, `HPA1`, `HPA2` -/
  hpa : Vec3
  /-- `DT` -/
  dt : W64
  /-- `WCAP` -/
  wcap : Nat
  /-- `OA` -/
  oa : Table Mat2 32
  /-- `OB` -/
  ob : Table Mat2 32
  deriving DecidableEq, Repr

/-- The entry of index `i` (R207): HPB to 0..2, HPA to 3..5, DT to 6, WCAP to 7, and for each j the matrices OA[j]
and OB[j], row by row, to 8+8j .. 15+8j. -/
def Coefficients.entry (c : Coefficients) (i : Fin 264) : W64 :=
  if h : i.val < 3 then c.hpb.get ⟨i, h⟩
  else if h : i.val < 6 then c.hpa.get ⟨i - 3, by omega⟩
  else if i.val = 6 then c.dt
  else if i.val = 7 then valueU c.wcap
  else
    if (i.val - 8) % 8 < 4 then
      (c.oa.get ⟨(i - 8) / 8, by omega⟩).get ⟨(i - 8) % 4 / 2, by omega⟩ ⟨(i - 8) % 2, by omega⟩
    else (c.ob.get ⟨(i - 8) / 8, by omega⟩).get ⟨(i - 8) % 4 / 2, by omega⟩ ⟨(i - 8) % 2, by omega⟩

/-- The table the host loads with CONSTRUCT (R207). -/
def Coefficients.table (c : Coefficients) : Table W64 264 := Table.ofFn c.entry

/-- Every coefficient the host computed is finite (R208). -/
def Coefficients.allFinite (c : Coefficients) : Bool :=
  c.hpb.allFinite && c.hpa.allFinite && isFinite c.dt && c.oa.entries.all Mat2.allFinite &&
    c.ob.entries.all Mat2.allFinite

/-- What the host computes for a sample rate (R200 to R206), `hpb`, `hpa`, `oa` and `ob` being what the formulas R203 to
R206 give: no value for a rate the host must refuse (R208). -/
def hostCoefficients (wcapMax : Nat) (r : SampleRate) (hpb hpa : Vec3) (oa ob : Table Mat2 32) :
    Option Coefficients :=
  (hostDt r).bind fun dt => (hostWcap wcapMax r).map fun wcap => ⟨hpb, hpa, dt, wcap, oa, ob⟩

/-- The host's Construct (R207, R208): the commands that load the table and issue INIT, or InvalidConfiguration when
the rate is refused or a coefficient is not finite. Of the two ways R208 allows, the host issues no command at all then,
so no INIT (DESIGN CHOICE, log 17). -/
def hostConstruct (wcapMax : Nat) (r : SampleRate) (hpb hpa : Vec3) (oa ob : Table Mat2 32) :
    Except ErrorCode (List Instr) :=
  match hostCoefficients wcapMax r hpb hpa oa ob with
  | none => .error .invalidConfiguration
  | some c => if c.allFinite then .ok (construct c.table) else .error .invalidConfiguration

end Sys2Proof.Machine
end

