-- ==== Sys2Proof/Safety.lean ====
section
/-! DEFINITION. What the statements speak of: the invariant of 10_state.md R39, what a refused command may write
(60_exceptions.md R229), when a tick is accepted (41_signal_conditioner.md R131), and what a binary64 pattern is worth
(00_scope.md R8). -/

namespace Sys2Proof.Safety

open Sys2Proof Sys2Proof.Machine

/-! ### Answers -/

/-- The state `s` after a response with status OK and `data`: `rsp_word` carries only the class (R81). -/
def answered (s : State) (data : W64) : State :=
  { s with delivered := s.delivered ++ [⟨s.lclass.setWidth 32, data⟩] }

/-- The state `s` after an error of code `n`: bit `n` of ERRFLAGS and the response (R229), nothing else. -/
def refusedWith (s : State) (n : Nat) : State :=
  { s with
    errflags := s.errflags ||| BitVec.ofNat 8 (2 ^ n)
    delivered := s.delivered ++ [⟨BitVec.ofNat 32 (2 ^ 24 * n) ||| s.lclass.setWidth 32, 0#64⟩] }

/-- `rsp.status` (R81). -/
def statusOf (r : Response) : Nat := r.word.toNat / 2 ^ 24

/-! ### The invariant (R39) -/

/-- +0.0 or a positive finite value, never −0.0, as a check. -/
def isNonNegative (w : W64) : Bool := w.toNat < 0x7FF0000000000000

/-- +0.0 or a positive finite value, never −0.0. -/
abbrev NonNegative (w : W64) : Prop := isNonNegative w = true

/-- R39 (a): the table of an instance passes `CfgValid()`. -/
abbrev TableValid (s : State) : Prop := s.mode ≠ .unconfigured → s.cfgValid = true

/-- R39 (b), for the values that may be negative. -/
abbrev ValuesFinite (s : State) : Prop :=
  s.ref.allFinite = true ∧ s.x0.allFinite = true ∧ s.x1.allFinite = true ∧ s.x2.allFinite = true ∧
  s.y0.allFinite = true ∧ s.y1.allFinite = true ∧ s.v.allFinite = true ∧
  ∀ o ∈ s.osc.entries, o.allFinite = true

/-- R39 (c): SVA, MAX30 and every listed window entry. -/
abbrev SpectrumNonNegative (s : State) : Prop :=
  (∀ j, NonNegative (s.sva.get j)) ∧ NonNegative s.max30 ∧ ∀ c ∈ s.win, NonNegative c.2

/-- R39 (d): the window of an instance. -/
abbrev WindowConsistent (s : State) : Prop :=
  s.mode ≠ .unconfigured →
    s.wptr.toNat < s.wcap ∧ s.max30 = windowMax s.win s.wcap ∧ s.lclass = classify s.max30

/-- Every running-state element at its initial value (R41). -/
abbrev RunningZero (s : State) : Prop :=
  s.ref = Vec3.zero ∧ s.x0 = Vec3.zero ∧ s.x1 = Vec3.zero ∧ s.x2 = Vec3.zero ∧ s.y0 = Vec3.zero ∧
  s.y1 = Vec3.zero ∧ s.v = Vec3.zero ∧ s.osc = Table.fill 32 Mat2.zero ∧
  s.sva = Table.fill 32 Config.posZero ∧ s.win = [] ∧ s.wptr = 0#16 ∧ s.max30 = Config.posZero ∧ s.lclass = 0#3

/-- R39 (e), and R115: nothing in UNCONFIGURED changes the reset values. -/
abbrev ZeroBeforeFirstTick (s : State) : Prop := s.mode ≠ .running → RunningZero s

/-- R39 (f). -/
abbrev NothingStaged (s : State) : Prop := s.mode = .unconfigured → s.svalid = 0#3

/-- R22: bits 0 and 7 of ERRFLAGS are always 0. -/
abbrev FlagsLegal (s : State) : Prop := s.errflags &&& 0x81#8 = 0#8

/-- The window store is canonical and lists nothing at or above WCAP_MAX (R35), which is legal (R6). -/
abbrev StoreLegal (s : State) : Prop :=
  s.win.wf = true ∧ (∀ c ∈ s.win, c.1 < s.wcapMax) ∧ Config.wcapMaxLegal s.wcapMax = true

/-- The invariant of R39, with R22 and the form of the window store. -/
abbrev Inv (s : State) : Prop :=
  TableValid s ∧ ValuesFinite s ∧ SpectrumNonNegative s ∧ WindowConsistent s ∧ ZeroBeforeFirstTick s ∧
  NothingStaged s ∧ FlagsLegal s ∧ StoreLegal s

/-- The values reset leaves (R41, 70_reset_and_hazards.md R250), without the data of CFG, which is unspecified. -/
abbrev AtResetValues (s : State) : Prop :=
  s.mode = .unconfigured ∧ s.errflags = 0x00#8 ∧ s.svalid = 0b000#3 ∧ s.sx = ⟨0#64, 0#64, 0#64⟩ ∧
  (∀ i, s.cw.get i = false) ∧ RunningZero s

/-! ### Ticks -/

/-- UPDATE is admitted (R131 step 1): an instance, three components, all finite. -/
abbrev Admitted (s : State) : Prop :=
  s.mode ≠ .unconfigured ∧ s.svalid = 0b111#3 ∧ s.sx.allFinite = true

/-- UPDATE reaches its commit (R131 step 3): every value it is about to write is finite. -/
abbrev TickAccepted (s : State) : Prop := Admitted s ∧ s.tick.allFinite = true

/-- Everything zero that a stream of samples equal to the first leaves zero (43_classifier.md R170, 10_state.md R39
(g)): the filter outputs and the oscillators are zeros of either sign; the whole offset history, the velocity, the
spectrum, the window and the maximum are +0.0; the class is 0. -/
abbrev Quiet (s : State) : Prop :=
  s.x0 = Vec3.zero ∧ s.x1 = Vec3.zero ∧ s.x2 = Vec3.zero ∧ (∀ k, isZero (s.y0.get k) = true) ∧ (∀ k, isZero (s.y1.get k) = true) ∧
  s.v = Vec3.zero ∧ (∀ j r c, isZero ((s.osc.get j).get r c) = true) ∧
  s.sva = Table.fill 32 Config.posZero ∧ (∀ i, s.win.read i = Config.posZero) ∧
  s.max30 = Config.posZero ∧ s.lclass = 0#3

/-! ### Commands -/

/-- The read commands (44_read_commands.md R187). -/
abbrev IsRead : Instr → Prop
  | .rdsva _ | .rdacc _ | .rdvel _ | .rdmax | .rdwin _ | .rdclass | .rdstat => True
  | .nop | .reset | .wrcfg _ _ | .init | .lds _ _ | .update => False

/-- The status codes a decoded command may end with (60_exceptions.md R221, "Raised by"). -/
abbrev StatusAllowed (n : Nat) : Instr → Prop
  | .nop | .reset | .rdstat => n = 0
  | .wrcfg _ _ | .rdsva _ | .rdacc _ | .rdvel _ | .rdwin _ => n = 0 ∨ n = 4 ∨ n = 5
  | .init => n = 0 ∨ n = 1 ∨ n = 4
  | .lds _ _ => n = 0 ∨ n = 2 ∨ n = 4
  | .update => n = 0 ∨ n = 2 ∨ n = 4 ∨ n = 6
  | .rdmax | .rdclass => n = 0 ∨ n = 4

/-- A command word that is no command (30_encoding.md R85, R86), as R224 lists the three cases. -/
abbrev IllegalWord (w : W32) : Prop :=
  w.toNat / 2 ^ 16 % 2 ^ 8 ≠ 0 ∨
  (0x06 ≤ w.toNat / 2 ^ 24 ∧ w.toNat / 2 ^ 24 ≤ 0x0F) ∨ 0x17 ≤ w.toNat / 2 ^ 24 ∨
  (w.toNat / 2 ^ 24 ∈ [0x00, 0x01, 0x03, 0x05, 0x13, 0x15, 0x16] ∧ w.toNat % 2 ^ 16 ≠ 0)

/-- `CfgValid()` (40_configuration.md R114), its five conditions spelled out. -/
abbrev TablePasses (s : State) : Prop :=
  (∀ i, s.cw.get i = true) ∧
  (∀ i : Fin 264, i ≠ 7 → (s.cfg.get i).toNat / 2 ^ 52 % 2 ^ 11 ≠ 0x7FF) ∧
  s.cfg.get 3 = 0x3FF0000000000000#64 ∧
  (0 < (s.cfg.get 6).toNat ∧ (s.cfg.get 6).toNat < 2 ^ 63) ∧
  ((s.cfg.get 7).toNat / 2 ^ 32 = 0 ∧ 1 ≤ (s.cfg.get 7).toNat % 2 ^ 32 ∧ (s.cfg.get 7).toNat % 2 ^ 32 ≤ s.wcapMax)

/-! ### The worth of a pattern (R8) -/

/-- The rational value of a finite pattern, as R8 writes it. -/
def value (w : W64) : ℚ :=
  (if signBit w then -1 else 1) *
    (if expField w = 0 then (fracField w : ℚ) / 2 ^ 52 * (2 : ℚ) ^ (-1022 : ℤ)
     else (2 : ℚ) ^ ((expField w : ℤ) - 1023) * (1 + (fracField w : ℚ) / 2 ^ 52))

/-- Half a unit in the last place above the largest finite value: where rounding to nearest overflows. -/
def overflowBound : ℝ := 2 ^ 1024 - 2 ^ 970

/-- `r` is the non-zero real `x` rounded once to the nearest binary64, ties to the even fraction, overflowing to
an infinity (R9). -/
def RoundsTo (r : W64) (x : ℝ) : Prop :=
  (signBit r = true ↔ x < 0) ∧
  (overflowBound ≤ |x| → isInf r = true) ∧
  (|x| < overflowBound → isFinite r = true ∧
    ∀ c : W64, isFinite c = true → |(value r : ℝ) - x| ≤ |(value c : ℝ) - x| ∧
      (value c ≠ value r → |(value r : ℝ) - x| = |(value c : ℝ) - x| → fracField r % 2 = 0))

end Sys2Proof.Safety
end

