-- ==== Sys2Proof/Certificates/Slice0/Obligations.lean ====
section
/-! DEFINITION. The statements for the provers, in the order of spec/: the port and the decoder, the whole machine,
the commands family by family, the tick stage by stage, the errors, the arithmetic. Each docstring names the rule. -/

open Sys2Proof Sys2Proof.Machine Sys2Proof.Safety

/-! ### Encoding and decoding (30_encoding.md) -/

/-- Every command with an index of 16 bits decodes from its encoding, and every packet that decodes carries the
word of the command it decodes to (R80, R82, R85, R87). -/
def Obligations.EncodedCommandsDecode : Prop :=
  (∀ i : Instr, i.wellFormed = true → decode (encode i) = .ok i) ∧
  ∀ (p : Packet) (i : Instr), decode p = .ok i →
    i.wellFormed = true ∧ (encode i).word = p.word ∧
      ∀ idx data, i = .wrcfg idx data ∨ i = .lds idx data → data = p.data ∧ encode i = p

/-- "A word w selects the command when `w & mask = match`", row by row, whatever the data (R82). -/
def Obligations.RowsSelectByMatchAndMask : Prop :=
  ∀ (w : W32) (d : W64),
    (decode ⟨w, d⟩ = .ok .nop ↔ w &&& 0xFFFFFFFF#32 = 0x00000000#32) ∧
    (decode ⟨w, d⟩ = .ok .reset ↔ w &&& 0xFFFFFFFF#32 = 0x01000000#32) ∧
    (decode ⟨w, d⟩ = .ok (.wrcfg (w.toNat % 2 ^ 16) d) ↔ w &&& 0xFFFF0000#32 = 0x02000000#32) ∧
    (decode ⟨w, d⟩ = .ok .init ↔ w &&& 0xFFFFFFFF#32 = 0x03000000#32) ∧
    (decode ⟨w, d⟩ = .ok (.lds (w.toNat % 2 ^ 16) d) ↔ w &&& 0xFFFF0000#32 = 0x04000000#32) ∧
    (decode ⟨w, d⟩ = .ok .update ↔ w &&& 0xFFFFFFFF#32 = 0x05000000#32) ∧
    (decode ⟨w, d⟩ = .ok (.rdsva (w.toNat % 2 ^ 16)) ↔ w &&& 0xFFFF0000#32 = 0x10000000#32) ∧
    (decode ⟨w, d⟩ = .ok (.rdacc (w.toNat % 2 ^ 16)) ↔ w &&& 0xFFFF0000#32 = 0x11000000#32) ∧
    (decode ⟨w, d⟩ = .ok (.rdvel (w.toNat % 2 ^ 16)) ↔ w &&& 0xFFFF0000#32 = 0x12000000#32) ∧
    (decode ⟨w, d⟩ = .ok .rdmax ↔ w &&& 0xFFFFFFFF#32 = 0x13000000#32) ∧
    (decode ⟨w, d⟩ = .ok (.rdwin (w.toNat % 2 ^ 16)) ↔ w &&& 0xFFFF0000#32 = 0x14000000#32) ∧
    (decode ⟨w, d⟩ = .ok .rdclass ↔ w &&& 0xFFFFFFFF#32 = 0x15000000#32) ∧
    (decode ⟨w, d⟩ = .ok .rdstat ↔ w &&& 0xFFFFFFFF#32 = 0x16000000#32)

/-- All seventeen worked encodings of R89 decode to the lines they stand for, with any data where the data is ignored,
and the three illegal examples are refused each for its reason. -/
def Obligations.WorkedEncodingsDecode : Prop :=
  decode ⟨0x02000003#32, 0x3FF0000000000000#64⟩ = .ok (.wrcfg 3 0x3FF0000000000000#64) ∧
  decode ⟨0x02000006#32, 0x3F847AE147AE147B#64⟩ = .ok (.wrcfg 6 0x3F847AE147AE147B#64) ∧
  decode ⟨0x02000007#32, 0x0000000000000BB8#64⟩ = .ok (.wrcfg 7 (valueU 3000)) ∧
  decode ⟨0x02000092#32, 0xBFE0000000000000#64⟩ = .ok (.wrcfg (oaIndex 17 1 0).val 0xBFE0000000000000#64) ∧
  decode ⟨0x02000107#32, 0#64⟩ = .ok (.wrcfg (obIndex 31 1 1).val 0#64) ∧
  decode ⟨0x04000002#32, 0x408EA00000000000#64⟩ = .ok (.lds 2 0x408EA00000000000#64) ∧
  ∀ d : W64,
    decode ⟨0x00000000#32, d⟩ = .ok .nop ∧ decode ⟨0x01000000#32, d⟩ = .ok .reset ∧
    decode ⟨0x03000000#32, d⟩ = .ok .init ∧ decode ⟨0x05000000#32, d⟩ = .ok .update ∧
    decode ⟨0x10000011#32, d⟩ = .ok (.rdsva 17) ∧ decode ⟨0x11000000#32, d⟩ = .ok (.rdacc 0) ∧
    decode ⟨0x12000002#32, d⟩ = .ok (.rdvel 2) ∧ decode ⟨0x13000000#32, d⟩ = .ok .rdmax ∧
    decode ⟨0x14000BB7#32, d⟩ = .ok (.rdwin 2999) ∧ decode ⟨0x15000000#32, d⟩ = .ok .rdclass ∧
    decode ⟨0x16000000#32, d⟩ = .ok .rdstat ∧
    decode ⟨0x06000000#32, d⟩ = .error .reservedOpcode ∧ decode ⟨0x05010000#32, d⟩ = .error .reservedField ∧
    decode ⟨0x05000001#32, d⟩ = .error .indexNotZero

/-- 60_exceptions.md R224: a packet of the three illegal kinds raises IllegalCommand in every state, before any state
test, and sets ERRFLAGS[3] and nothing else; every other packet is a command, which runs. -/
def Obligations.IllegalPacketsRefused : Prop :=
  (∀ (s : State) (p : Packet), IllegalWord p.word →
    step { s with pending := .command p :: s.pending } = .next (refusedWith s 3)) ∧
  ∀ (s : State) (p : Packet), ¬ IllegalWord p.word →
    ∃ i, decode p = .ok i ∧ step { s with pending := .command p :: s.pending } = exec i s

/-! ### The whole machine -/

/-- A step takes the packet at the head of the port off it and runs the command it decodes to (20_memory.md R66). -/
def Obligations.StepRunsDecodedCommand : Prop :=
  ∀ (s : State) (p : Packet) (rest : List HostEvent) (i : Instr),
    s.pending = .command p :: rest → decode p = .ok i → step s = exec i { s with pending := rest }

/-- The command of a table word placed at the port is the next to run. The numbering of the table's bits is the
model's reading (log 8). -/
def Obligations.FetchWordRunsNext : Prop :=
  ∀ (s : State) (nbits w : Nat) (i : Instr),
    decodeTableWord nbits w = some i → step (s.withFetchWord nbits w) = exec i s

/-- With nothing at the port the block holds its state (60_exceptions.md R236). That a step exists at all with
nothing at the port is the model's choice (log 5). -/
def Obligations.IdleBlockHoldsState : Prop := ∀ s : State, s.pending = [] → step s = .next s

/-- Hardware reset puts every element at its reset value, without a response (70_reset_and_hazards.md R250). Where
among the commands it falls is the model's reading (log 7). -/
def Obligations.HardwareResetRestoresResetValues : Prop :=
  ∀ (s : State) (rest : List HostEvent), s.pending = .hardwareReset :: rest →
    ∃ t, step s = .next t ∧ AtResetValues t ∧ t.wcapMax = s.wcapMax ∧ t.pending = rest ∧ t.delivered = s.delivered

/-- The state after reset has the values of 10_state.md R41, the written flags and every window entry among them. -/
def Obligations.ResetStateHoldsResetValues : Prop :=
  AtResetValues State.reset ∧ (∀ i, State.reset.win.read i = 0#64) ∧
    (∀ j r c, (State.reset.osc.get j).get r c = 0#64) ∧ ∀ j, State.reset.sva.get j = 0#64

/-- The state after reset meets the invariant. The value 6000 of WCAP_MAX is the spec's default (log 1). -/
def Obligations.ResetMeetsInvariant : Prop := Inv State.reset

/-- Every step keeps the invariant of 10_state.md R39 (a) to (f), with R22 and the form of the window store. -/
def Obligations.EveryStepKeepsInvariant : Prop :=
  ∀ s t : State, Inv s → step s = .next t → Inv t

/-- Every step answers: the event at the head of the port is consumed, a command packet adds exactly one response
behind those delivered, and nothing stops the block (20_memory.md R60, 60_exceptions.md R230,
70_reset_and_hazards.md R256). -/
def Obligations.EveryStepAnswers : Prop :=
  ∀ s : State, ∃ t, step s = .next t ∧ t.pending = s.pending.tail ∧
    (∀ p, s.pending.head? = some (.command p) → ∃ r, t.delivered = s.delivered ++ [r]) ∧
    ((∀ p, s.pending.head? ≠ some (.command p)) → t.delivered = s.delivered)

/-- A list of command packets is answered packet for packet, in order, in as many steps: after k of them exactly the
first k responses have been delivered (20_memory.md R60, R66). That a response counts as delivered in the step of its
own command is the model's choice (log 5). -/
def Obligations.RunAnswersEveryCommandInOrder : Prop :=
  ∀ (s : State) (ps : List Packet), s.pending = ps.map HostEvent.command →
    ∃ t : State, Host.Core.run Sys2Proof.core ps.length s = .next t ∧ t.pending = [] ∧
      t.delivered.length = s.delivered.length + ps.length ∧
      ∀ k, k ≤ ps.length → ∃ u : State, Host.Core.run Sys2Proof.core k s = .next u ∧
        u.pending = (ps.drop k).map HostEvent.command ∧
        u.delivered = t.delivered.take (s.delivered.length + k)

/-- What a command does depends on the state and its own packet: not on what the host will present next, nor on
what was answered before (20_memory.md R66). -/
def Obligations.CommandsIgnoreThePort : Prop :=
  ∀ (i : Instr) (s : State), ∃ (t : State) (r : Response),
    exec i s = .next t ∧ t.pending = s.pending ∧ t.delivered = s.delivered ++ [r] ∧
      ∀ q d, exec i { s with pending := q, delivered := d } = .next { t with pending := q, delivered := d ++ [r] }

/-- 10_state.md R21: STATE changes only by a successful INIT, by the first UPDATE that ends OK, and to UNCONFIGURED by
RESET or hardware reset. -/
def Obligations.StateChangesOnlyAsListed : Prop :=
  ∀ s t : State, step s = .next t → t.mode ≠ s.mode →
    (s.pending.head? = some .hardwareReset ∧ t.mode = .unconfigured) ∨
    ∃ p i, s.pending.head? = some (.command p) ∧ decode p = .ok i ∧
      ((i = .reset ∧ t.mode = .unconfigured) ∨
       (i = .init ∧ s.mode = .unconfigured ∧ TablePasses s ∧ t.mode = .uninitialized) ∨
       (i = .update ∧ s.mode = .uninitialized ∧ TickAccepted s ∧ t.mode = .running))

/-- While an instance lives, however many commands it takes, the table and its written flags stay as INIT found them,
RUNNING is never left and the captured reference never changes (20_memory.md R69, 10_state.md R21, R24, R29). -/
def Obligations.InstanceKeepsTableAndReference : Prop :=
  ∀ (n : Nat) (s t : State), s.mode ≠ .unconfigured →
    (∀ e ∈ s.pending, e ≠ .hardwareReset ∧ ∀ d, e ≠ .command ⟨0x01000000#32, d⟩) →
    Host.Core.run Sys2Proof.core n s = .next t →
    t.cfg = s.cfg ∧ t.cw = s.cw ∧ t.mode ≠ .unconfigured ∧
      (s.mode = .running → t.mode = .running ∧ t.ref = s.ref)

/-- The data of a table entry that has not been written since reset cannot be observed by any run
(70_reset_and_hazards.md R250, 10_state.md R24). The value the model gives it at reset is log 2's; this statement holds
for every value. -/
def Obligations.UnwrittenTableDataIsUnobservable : Prop :=
  ∀ (n : Nat) (s t : State) (c : Table W64 264),
    (∀ i, s.cw.get i = true → c.get i = s.cfg.get i) →
    (s.mode ≠ .unconfigured → ∀ i, s.cw.get i = true) →
    Host.Core.run Sys2Proof.core n s = .next t →
    ∃ c', Host.Core.run Sys2Proof.core n { s with cfg := c } = .next { t with cfg := c' } ∧
      ∀ i, t.cw.get i = true → c'.get i = t.cfg.get i

/-! ### Configuration and control (40_configuration.md) -/

/-- R110: NOP does nothing but answer, in every state. -/
def Obligations.NopRule : Prop :=
  (∀ d : W64, decode ⟨0x00000000#32, d⟩ = .ok .nop) ∧ ∀ s : State, exec .nop s = .next (answered s 0#64)

/-- R111: RESET puts every element at its reset value in every state and answers OK with class 0; but for the
response and the unspecified data of CFG its effect is hardware reset's; INIT and the reads are refused after it. -/
def Obligations.ResetCommandRule : Prop :=
  (∀ d : W64, decode ⟨0x01000000#32, d⟩ = .ok .reset) ∧
  ∀ s : State, ∃ t, exec .reset s = .next t ∧ AtResetValues t ∧ t.wcapMax = s.wcapMax ∧ t.pending = s.pending ∧
    t.delivered = s.delivered ++ [⟨0x00000000#32, 0#64⟩] ∧
    (∃ c, step { s with pending := .hardwareReset :: s.pending } =
      .next { t with cfg := c, delivered := s.delivered }) ∧
    exec .init t = .next (refusedWith t 1) ∧ exec .rdmax t = .next (refusedWith t 4)

/-- R112: WRCFG writes one entry and its written flag, in UNCONFIGURED only, at an index below 264 only. -/
def Obligations.WrcfgRule : Prop :=
  ∀ (s : State) (idx : Nat) (data : W64), idx < 65536 →
    decode ⟨BitVec.ofNat 32 (0x02000000 + idx), data⟩ = .ok (.wrcfg idx data) ∧
    (s.mode ≠ .unconfigured → exec (.wrcfg idx data) s = .next (refusedWith s 4)) ∧
    (s.mode = .unconfigured → 264 ≤ idx → exec (.wrcfg idx data) s = .next (refusedWith s 5)) ∧
    (s.mode = .unconfigured → idx < 264 → ∃ t, exec (.wrcfg idx data) s = .next t ∧
      t = answered { s with cfg := t.cfg, cw := t.cw } 0#64 ∧
      (∀ j, t.cfg.get j = if j.val = idx then data else s.cfg.get j) ∧
      ∀ j, t.cw.get j = if j.val = idx then true else s.cw.get j)

/-- R113, R114: INIT creates the instance exactly when the table passes the five tests, and raises
InvalidConfiguration, whichever test fails, when it does not. -/
def Obligations.InitRule : Prop :=
  (∀ d : W64, decode ⟨0x03000000#32, d⟩ = .ok .init) ∧
  ∀ s : State,
    (s.mode ≠ .unconfigured → exec .init s = .next (refusedWith s 4)) ∧
    (s.mode = .unconfigured → ¬ TablePasses s → exec .init s = .next (refusedWith s 1)) ∧
    (s.mode = .unconfigured → TablePasses s → ∃ t, exec .init s = .next t ∧
      t = answered
        { s with
          mode := .uninitialized, svalid := 0b000#3,
          ref := Vec3.zero, x0 := Vec3.zero, x1 := Vec3.zero, x2 := Vec3.zero, y0 := Vec3.zero,
          y1 := Vec3.zero, v := Vec3.zero, osc := Table.fill 32 Mat2.zero, sva := Table.fill 32 Config.posZero,
          win := t.win, wptr := 0#16, max30 := Config.posZero, lclass := 0#3 } 0#64 ∧
      ∀ a, t.win.read a = if a < (s.cfg.get 7).toNat % 2 ^ 32 then Config.posZero else s.win.read a)

/-- CONSTRUCT (30_encoding.md R88) from UNCONFIGURED: 264 WRCFG and INIT load the table and create the instance when the
table passes R114, and otherwise only INIT is refused, with the table loaded (40_configuration.md R113). -/
def Obligations.ConstructCreatesInstance : Prop :=
  ∀ (s : State) (table : Table W64 264), s.mode = .unconfigured → s.lclass = 0#3 →
    s.pending = hostEvents (construct table) →
    ∃ t : State, Host.Core.run Sys2Proof.core 265 s = .next t ∧ t.pending = [] ∧ t.cfg = table ∧
      (∀ i, t.cw.get i = true) ∧
      (TablePasses { s with cfg := table, cw := t.cw } → t.mode = .uninitialized ∧ t.errflags = s.errflags ∧
        t.delivered = s.delivered ++ List.replicate 265 ⟨0x00000000#32, 0#64⟩) ∧
      (¬ TablePasses { s with cfg := table, cw := t.cw } → t.mode = .unconfigured ∧
        t.delivered = s.delivered ++ List.replicate 264 ⟨0x00000000#32, 0#64⟩ ++ [⟨0x01000000#32, 0#64⟩])

/-- The host's table (45_host_coefficient_contract.md R207) puts every coefficient where the block looks for it
(10_state.md R24 to R28). -/
def Obligations.HostTableMatchesViews : Prop :=
  ∀ (s : State) (c : Coefficients), c.wcap < 2 ^ 32 → s.cfg = c.table →
    s.hpb0 = c.hpb.c0 ∧ s.hpb1 = c.hpb.c1 ∧ s.hpb2 = c.hpb.c2 ∧
    s.hpa0 = c.hpa.c0 ∧ s.hpa1 = c.hpa.c1 ∧ s.hpa2 = c.hpa.c2 ∧ s.dt = c.dt ∧ s.wcap = c.wcap ∧
    (s.cfg.get 7).toNat / 2 ^ 32 = 0 ∧ (∀ j, s.oa j = c.oa.get j) ∧ ∀ j, s.ob j = c.ob.get j

/-! ### Sample delivery and the tick (41_signal_conditioner.md) -/

/-- R130: LDS stages one component, unexamined, while an instance exists; a fourth component is InvalidInput. -/
def Obligations.LdsRule : Prop :=
  ∀ (s : State) (k : Nat) (data : W64), k < 65536 →
    decode ⟨BitVec.ofNat 32 (0x04000000 + k), data⟩ = .ok (.lds k data) ∧
    (s.mode = .unconfigured → exec (.lds k data) s = .next (refusedWith s 4)) ∧
    (s.mode ≠ .unconfigured → 3 ≤ k → exec (.lds k data) s = .next (refusedWith s 2)) ∧
    (s.mode ≠ .unconfigured → k < 3 → ∃ t, exec (.lds k data) s = .next t ∧
      t = answered { s with sx := t.sx, svalid := t.svalid } 0#64 ∧
      (∀ m : Fin 3, t.sx.get m = if m.val = k then data else s.sx.get m) ∧
      ∀ m : Nat, m < 3 → t.svalid.getLsbD m = if m = k then true else s.svalid.getLsbD m)

/-- UPDATE refused (R131 steps 1 and 3, 60_exceptions.md R223, R225, R227): BadState writes no SVALID, InvalidInput and
NumericFault clear it, and the running state stays as it was. -/
def Obligations.UpdateRefusals : Prop :=
  ∀ s : State,
    (s.mode = .unconfigured → exec .update s = .next (refusedWith s 4)) ∧
    (s.mode ≠ .unconfigured → s.svalid ≠ 0b111#3 →
      exec .update s = .next (refusedWith { s with svalid := 0b000#3 } 2)) ∧
    (s.mode ≠ .unconfigured → s.svalid = 0b111#3 → (∃ k, isFinite (s.sx.get k) = false) →
      exec .update s = .next (refusedWith { s with svalid := 0b000#3 } 2)) ∧
    (Admitted s → ¬ TickAccepted s → exec .update s = .next (refusedWith { s with svalid := 0b000#3 } 6))

/-- UPDATE accepted (R131 step 4, R134, R136, 43_classifier.md R166 to R169): the whole of the state it writes, the one
window entry among it, and nothing else; the answer carries the class just written. -/
def Obligations.UpdateCommitsTick : Prop :=
  (∀ d : W64, decode ⟨0x05000000#32, d⟩ = .ok .update) ∧
  ∀ s : State, TickAccepted s → ∃ t, exec .update s = .next t ∧
    t = answered
      { s with
        mode := .running, svalid := 0b000#3,
        ref := if s.mode = .uninitialized then s.sx else s.ref,
        x2 := s.x1, x1 := s.x0, x0 := s.tickX0, y1 := s.y0, y0 := s.tickY0, v := s.tickV,
        osc := s.tickOsc, sva := s.tickSva,
        win := s.win.write s.wptr.toNat (tickMax s.tickSva),
        wptr := if s.wptr.toNat + 1 = s.wcap then 0#16 else s.wptr + 1#16,
        max30 := windowMax (s.win.write s.wptr.toNat (tickMax s.tickSva)) s.wcap,
        lclass := classify (windowMax (s.win.write s.wptr.toNat (tickMax s.tickSva)) s.wcap) }
      (t.lclass.setWidth 64)

/-- R132: the first tick takes its own sample as the reference and makes it state, every later tick uses the stored
one, and an UPDATE that raises an error captures nothing. -/
def Obligations.ReferenceCaptureRule : Prop :=
  (∀ s : State, TickAccepted s → ∃ t, exec .update s = .next t ∧ t.mode = .running ∧
    (∀ k, t.ref.get k = if s.mode = .uninitialized then s.sx.get k else s.ref.get k) ∧
    ∀ k, t.x0.get k = fsub (s.sx.get k) (t.ref.get k)) ∧
  ∀ s : State, ¬ TickAccepted s → ∃ t, exec .update s = .next t ∧ t.ref = s.ref ∧ t.mode = s.mode

/-- REF is written by the first tick of an instance, by INIT and by RESET, and by nothing else (10_state.md R29). -/
def Obligations.ReferenceWrittenOncePerInstance : Prop :=
  ∀ (i : Instr) (s t : State), exec i s = .next t → t.ref ≠ s.ref →
    (i = .update ∧ s.mode = .uninitialized ∧ TickAccepted s ∧ t.ref = s.sx ∧ t.mode = .running) ∨
    ((i = .init ∨ i = .reset) ∧ t.ref = Vec3.zero)

/-- R133: the offset is raw minus reference per component, +0.0 on the first tick and wherever the sample equals the
reference, and an offset that is not finite ends the tick with NumericFault. -/
def Obligations.OffsetRemovalRule : Prop :=
  (∀ s : State, TickAccepted s → ∃ t, exec .update s = .next t ∧ ∀ k,
    t.x0.get k = fsub (s.sx.get k) (t.ref.get k) ∧
    (s.mode = .uninitialized ∨ s.sx.get k = s.ref.get k → t.x0.get k = 0x0000000000000000#64)) ∧
  ∀ (s : State) (k : Fin 3), Admitted s → s.mode = .running → isFinite (fsub (s.sx.get k) (s.ref.get k)) = false →
    exec .update s = .next (refusedWith { s with svalid := 0b000#3 } 6)

/-- R134: a tick shifts the offset history, all three places from the values before the commit, and no command's
effect depends on X2. -/
def Obligations.OffsetHistoryRule : Prop :=
  (∀ s : State, TickAccepted s → ∃ t, exec .update s = .next t ∧ t.x2 = s.x1 ∧ t.x1 = s.x0 ∧
    (∀ k, t.x0.get k = fsub (s.sx.get k) (t.ref.get k)) ∧
    ∀ k, t.y0.get k = highPass1 s.hpb0 s.hpb1 s.hpb2 s.hpa1 s.hpa2
      (t.x0.get k) (t.x1.get k) (t.x2.get k) (s.y0.get k) (s.y1.get k)) ∧
  ∀ (i : Instr) (s t : State) (u : Vec3), exec i s = .next t →
    ∃ x, exec i { s with x2 := u } = .next { t with x2 := x }

/-- R135, R136: the difference equation of the filter, per component, each product rounded before it is added, the
taps X0', X0, X1 and Y0, Y1; the output history shifts; an output that is not finite ends the tick. -/
def Obligations.HighPassRule : Prop :=
  (∀ s : State, TickAccepted s → ∃ t, exec .update s = .next t ∧ t.y1 = s.y0 ∧ ∀ k,
    t.y0.get k =
      fsub (fsub (fadd (fadd (fmul (s.cfg.get 0) (t.x0.get k)) (fmul (s.cfg.get 1) (s.x0.get k)))
        (fmul (s.cfg.get 2) (s.x1.get k))) (fmul (s.cfg.get 4) (s.y0.get k))) (fmul (s.cfg.get 5) (s.y1.get k))) ∧
  ∀ (s : State) (k : Fin 3), Admitted s → isFinite (s.tickY0.get k) = false →
    exec .update s = .next (refusedWith { s with svalid := 0b000#3 } 6)

/-- R137: the trapezoidal rule, in the document's order of operations; a velocity that is not finite ends the tick;
nothing but a tick, INIT and RESET writes the velocity. -/
def Obligations.IntegratorRule : Prop :=
  (∀ s : State, TickAccepted s → ∃ t, exec .update s = .next t ∧ ∀ k,
    t.v.get k = fadd (s.v.get k)
      (fdiv (fmul (fadd (s.y0.get k) (t.y0.get k)) (s.cfg.get 6)) 0x4000000000000000#64)) ∧
  (∀ (s : State) (k : Fin 3), Admitted s → isFinite (s.tickV.get k) = false →
    exec .update s = .next (refusedWith { s with svalid := 0b000#3 } 6)) ∧
  ∀ (i : Instr) (s t : State), exec i s = .next t → t.v ≠ s.v →
    (i = .update ∧ TickAccepted s) ∨ i = .init ∨ i = .reset

/-- R138: nothing after the integrator reads component 2. Two accepted ticks that differ in the vertical component
alone leave the same oscillators, spectrum, window, maximum and class. -/
def Obligations.VerticalComponentStopsAtIntegrator : Prop :=
  ∀ (s : State) (a b c d e f g h : W64) (t t' : State),
    let s' := { s with
      sx := s.sx.set 2 a, ref := s.ref.set 2 b, x0 := s.x0.set 2 c, x1 := s.x1.set 2 d, x2 := s.x2.set 2 e,
      y0 := s.y0.set 2 f, y1 := s.y1.set 2 g, v := s.v.set 2 h }
    TickAccepted s → TickAccepted s' → exec .update s = .next t → exec .update s' = .next t' →
    t'.osc = t.osc ∧ t'.sva = t.sva ∧ t'.win = t.win ∧ t'.wptr = t.wptr ∧ t'.max30 = t.max30 ∧
      t'.lclass = t.lclass ∧ t'.delivered = t.delivered

/-! ### The oscillator bank (42_oscillator_bank.md) -/

/-- R150, R151: each element of each channel's new state, from the old state, the channel's matrices and the previous
and the current filtered acceleration of its axis. -/
def Obligations.BankRecursionRule : Prop :=
  (∀ s : State, TickAccepted s → ∃ t, exec .update s = .next t ∧
    ∀ (j : Fin 32) (r : Fin 2),
      (t.osc.get j).get r 0 =
        fadd (fadd (fmul (s.cfg.get (oaIndex j r 0)) ((s.osc.get j).get 0 0))
                   (fmul (s.cfg.get (oaIndex j r 1)) ((s.osc.get j).get 1 0)))
             (fadd (fmul (s.cfg.get (obIndex j r 0)) (s.y0.get 0))
                   (fmul (s.cfg.get (obIndex j r 1)) (t.y0.get 0))) ∧
      (t.osc.get j).get r 1 =
        fadd (fadd (fmul (s.cfg.get (oaIndex j r 0)) ((s.osc.get j).get 0 1))
                   (fmul (s.cfg.get (oaIndex j r 1)) ((s.osc.get j).get 1 1)))
             (fadd (fmul (s.cfg.get (obIndex j r 0)) (s.y0.get 1))
                   (fmul (s.cfg.get (obIndex j r 1)) (t.y0.get 1)))) ∧
  ∀ (s : State) (j : Fin 32) (r k : Fin 2), Admitted s → isFinite ((s.tickOsc.get j).get r k) = false →
    exec .update s = .next (refusedWith { s with svalid := 0b000#3 } 6)

/-- R152, R153: the spectrum is the unscaled Euclidean norm of the absolute velocity, from the state and the velocity of
the same tick, and is +0.0 or a positive finite value. -/
def Obligations.SpectrumRule : Prop :=
  (∀ s : State, TickAccepted s → ∃ t, exec .update s = .next t ∧ ∀ j : Fin 32,
    t.sva.get j =
      fsqrt (fadd (fmul (fadd ((t.osc.get j).get 1 0) (t.v.get 0)) (fadd ((t.osc.get j).get 1 0) (t.v.get 0)))
                  (fmul (fadd ((t.osc.get j).get 1 1) (t.v.get 1)) (fadd ((t.osc.get j).get 1 1) (t.v.get 1)))) ∧
    NonNegative (t.sva.get j)) ∧
  ∀ (s : State) (j : Fin 32), Admitted s → isFinite (s.tickSva.get j) = false →
    exec .update s = .next (refusedWith { s with svalid := 0b000#3 } 6)

/-- R154: a column of a channel depends on that column, the channel's own eight entries and its axis alone, and the two
columns meet only in the channel's own spectrum value. -/
def Obligations.LanesAreIndependent : Prop :=
  ∀ (s s' t t' : State) (j : Fin 32), TickAccepted s → TickAccepted s' →
    exec .update s = .next t → exec .update s' = .next t' → s.oa j = s'.oa j → s.ob j = s'.ob j →
    (∀ k : Fin 2, (∀ r, (s.osc.get j).get r k = (s'.osc.get j).get r k) →
      s.y0.get k.castSucc = s'.y0.get k.castSucc → t.y0.get k.castSucc = t'.y0.get k.castSucc →
      ∀ r, (t.osc.get j).get r k = (t'.osc.get j).get r k) ∧
    ((∀ k : Fin 2, (t.osc.get j).get 1 k = (t'.osc.get j).get 1 k ∧ t.v.get k.castSucc = t'.v.get k.castSucc) →
      t.sva.get j = t'.sva.get j)

/-! ### The window and the class (43_classifier.md) -/

/-- R165: the tick maximum, as inserted in the window, is the fold of `fmax` over the spectrum, one of its values, and
below none of them. -/
def Obligations.TickMaximumRule : Prop :=
  ∀ s : State, Inv s → TickAccepted s → ∃ t, exec .update s = .next t ∧
    t.win.read s.wptr.toNat = (List.range' 1 31).foldl (fun m j => fmax m (t.svaAt j)) (t.svaAt 0) ∧
    (∃ j, t.win.read s.wptr.toNat = t.sva.get j) ∧
    ∀ j, flt (t.win.read s.wptr.toNat) (t.sva.get j) = false

/-- R166: an accepted tick overwrites the entry at WPTR, which is the oldest, and no other entry; the window read oldest
first moves up by one and ends with the new tick's maximum; WPTR stays below WCAP. -/
def Obligations.WindowInsertRule : Prop :=
  ∀ s : State, Inv s → TickAccepted s → ∃ t, exec .update s = .next t ∧
    t.win.read s.wptr.toNat = tickMax t.sva ∧
    (∀ a, a ≠ s.wptr.toNat → t.win.read a = s.win.read a) ∧
    t.wptr.toNat = (if s.wptr.toNat + 1 = s.wcap then 0 else s.wptr.toNat + 1) ∧ t.wptr.toNat < t.wcap ∧
    (∀ i, i + 1 < s.wcap → t.windowEntry i = s.windowEntry (i + 1)) ∧
    t.windowEntry (s.wcap - 1) = tickMax t.sva

/-- R167: MAX30 after a tick is the fold of `fmax` over the window with the current tick included; it is one of the
entries and below none. -/
def Obligations.WindowMaximumRule : Prop :=
  ∀ s : State, Inv s → TickAccepted s → ∃ t, exec .update s = .next t ∧
    t.max30 = (List.range' 1 (s.wcap - 1)).foldl (fun m i => fmax m (t.win.read i)) (t.win.read 0) ∧
    (∃ i, i < s.wcap ∧ t.max30 = t.win.read i) ∧
    (∀ i, i < s.wcap → flt t.max30 (t.win.read i) = false) ∧ NonNegative t.max30

/-- R168: the class of a maximum by the strict thresholds 5, 15, 50 and 100; a non-decreasing function with values 0 to
4; LCLASS is that class after every accepted tick, and only UPDATE, INIT and RESET write it. -/
def Obligations.ClassificationRule : Prop :=
  (∀ m : W64, NonNegative m →
    (classify m).toNat =
      if value m < 5 then 0 else if value m < 15 then 1 else if value m < 50 then 2
      else if value m < 100 then 3 else 4) ∧
  (∀ m n : W64, NonNegative m → NonNegative n → value m ≤ value n → (classify m).toNat ≤ (classify n).toNat) ∧
  (∀ s : State, TickAccepted s → ∃ t, exec .update s = .next t ∧ t.lclass = classify t.max30) ∧
  ∀ (i : Instr) (s t : State), exec i s = .next t → t.lclass ≠ s.lclass → i = .update ∨ i = .init ∨ i = .reset

/-- R170, one tick: a sample equal to the first leaves the offset history X0, X1 and X2, the velocity, the spectrum, the
window and the maximum +0.0, every filter output and oscillator element a zero of either sign, and the class 0. -/
def Obligations.ConstantSampleKeepsQuiet : Prop :=
  ∀ s : State, Inv s → Admitted s →
    (s.mode = .uninitialized ∨ (s.mode = .running ∧ Quiet s ∧ s.sx = s.ref)) →
    ∃ t, exec .update s = .next t ∧ Quiet t ∧ t.mode = .running ∧ t.ref = s.sx ∧
      t.delivered = s.delivered ++ [⟨0x00000000#32, 0#64⟩]

/-- R170, the whole stream: from a new instance, any number of samples equal to one finite sample, each delivered as
SAMPLE (30_encoding.md R88), is answered OK with data 0 throughout and leaves the state quiet: offset history, velocity,
spectrum, window and maximum +0.0, filter outputs and oscillators zeros of either sign, class 0. -/
def Obligations.ConstantStreamIsSilent : Prop :=
  ∀ (s : State) (r : Vec3) (n : Nat), Inv s → s.mode = .uninitialized → r.allFinite = true →
    s.pending = hostEvents (List.replicate n (sample r.c0 r.c1 r.c2)).flatten →
    ∃ t : State, Host.Core.run Sys2Proof.core (4 * n) s = .next t ∧ t.pending = [] ∧
      t.delivered = s.delivered ++ List.replicate (4 * n) ⟨0x00000000#32, 0#64⟩ ∧
      (0 < n → Quiet t ∧ t.mode = .running ∧ t.ref = r)

/-! ### The read commands (44_read_commands.md) -/

/-- R180: RDSVA. -/
def Obligations.RdsvaRule : Prop :=
  ∀ (s : State) (j : Nat) (d : W64), j < 65536 →
    decode ⟨BitVec.ofNat 32 (0x10000000 + j), d⟩ = .ok (.rdsva j) ∧
    (s.mode = .unconfigured → exec (.rdsva j) s = .next (refusedWith s 4)) ∧
    (s.mode ≠ .unconfigured → 32 ≤ j → exec (.rdsva j) s = .next (refusedWith s 5)) ∧
    ∀ h : j < 32, s.mode ≠ .unconfigured → exec (.rdsva j) s = .next (answered s (s.sva.get ⟨j, h⟩)) ∧
      (Inv s → NonNegative (s.sva.get ⟨j, h⟩))

/-- R181: RDACC. -/
def Obligations.RdaccRule : Prop :=
  ∀ (s : State) (k : Nat) (d : W64), k < 65536 →
    decode ⟨BitVec.ofNat 32 (0x11000000 + k), d⟩ = .ok (.rdacc k) ∧
    (s.mode = .unconfigured → exec (.rdacc k) s = .next (refusedWith s 4)) ∧
    (s.mode ≠ .unconfigured → 3 ≤ k → exec (.rdacc k) s = .next (refusedWith s 5)) ∧
    ∀ h : k < 3, s.mode ≠ .unconfigured → exec (.rdacc k) s = .next (answered s (s.y0.get ⟨k, h⟩))

/-- R182: RDVEL. -/
def Obligations.RdvelRule : Prop :=
  ∀ (s : State) (k : Nat) (d : W64), k < 65536 →
    decode ⟨BitVec.ofNat 32 (0x12000000 + k), d⟩ = .ok (.rdvel k) ∧
    (s.mode = .unconfigured → exec (.rdvel k) s = .next (refusedWith s 4)) ∧
    (s.mode ≠ .unconfigured → 3 ≤ k → exec (.rdvel k) s = .next (refusedWith s 5)) ∧
    ∀ h : k < 3, s.mode ≠ .unconfigured → exec (.rdvel k) s = .next (answered s (s.v.get ⟨k, h⟩))

/-- R183: RDMAX; the value is the maximum of the window entries. -/
def Obligations.RdmaxRule : Prop :=
  (∀ d : W64, decode ⟨0x13000000#32, d⟩ = .ok .rdmax) ∧
  ∀ s : State,
    (s.mode = .unconfigured → exec .rdmax s = .next (refusedWith s 4)) ∧
    (s.mode ≠ .unconfigured → exec .rdmax s = .next (answered s s.max30)) ∧
    (s.mode ≠ .unconfigured → Inv s →
      (∃ i, i < s.wcap ∧ s.max30 = s.win.read i) ∧ ∀ i, i < s.wcap → flt s.max30 (s.win.read i) = false)

/-- R184: RDWIN, with its one conditional subtraction; no command but UPDATE, INIT and RESET writes the window. -/
def Obligations.RdwinRule : Prop :=
  (∀ (s : State) (i : Nat) (d : W64), i < 65536 →
    decode ⟨BitVec.ofNat 32 (0x14000000 + i), d⟩ = .ok (.rdwin i) ∧
    (s.mode = .unconfigured → exec (.rdwin i) s = .next (refusedWith s 4)) ∧
    (s.mode ≠ .unconfigured → s.wcap ≤ i → exec (.rdwin i) s = .next (refusedWith s 5)) ∧
    (s.mode ≠ .unconfigured → i < s.wcap → exec (.rdwin i) s = .next (answered s
      (s.win.read (if s.wcap ≤ s.wptr.toNat + i then s.wptr.toNat + i - s.wcap else s.wptr.toNat + i))))) ∧
  ∀ (i : Instr) (s t : State), exec i s = .next t → t.win ≠ s.win → i = .update ∨ i = .init ∨ i = .reset

/-- 20_memory.md R62: logical entry i is WIN[(WPTR + i) mod WCAP]; entry 0 is the one the next tick overwrites and entry
WCAP−1 the latest tick's maximum; the sum needs no more than 17 bits. -/
def Obligations.LogicalWindowRule : Prop :=
  (∀ (s : State) (i : Nat), Inv s → s.mode ≠ .unconfigured → i < s.wcap →
    exec (.rdwin i) s = .next (answered s (s.win.read ((s.wptr.toNat + i) % s.wcap))) ∧
    s.wptr.toNat + i < 2 * s.wcapMax ∧ 2 * s.wcapMax ≤ 131070) ∧
  ∀ s t : State, Inv s → TickAccepted s → exec .update s = .next t →
    (∀ a, a ≠ s.wptr.toNat % s.wcap → t.win.read a = s.win.read a) ∧
    exec (.rdwin (s.wcap - 1)) t = .next (answered t (tickMax t.sva))

/-- R185: RDCLASS; the class is 0 to 4. -/
def Obligations.RdclassRule : Prop :=
  (∀ d : W64, decode ⟨0x15000000#32, d⟩ = .ok .rdclass) ∧
  ∀ s : State,
    (s.mode = .unconfigured → exec .rdclass s = .next (refusedWith s 4)) ∧
    (s.mode ≠ .unconfigured → exec .rdclass s = .next (answered s (s.lclass.setWidth 64))) ∧
    (s.mode ≠ .unconfigured → Inv s → s.lclass.toNat ≤ 4)

/-- R186: RDSTAT, field by field of the status word, in every state. -/
def Obligations.RdstatRule : Prop :=
  (∀ d : W64, decode ⟨0x16000000#32, d⟩ = .ok .rdstat) ∧
  ∀ s : State, ∃ w : W64, exec .rdstat s = .next (answered s w) ∧
    (w.extractLsb' 0 2).toNat = (match s.mode with | .unconfigured => 0 | .uninitialized => 1 | .running => 2) ∧
    w.extractLsb' 2 3 = s.svalid ∧ w.extractLsb' 5 3 = s.lclass ∧ w.extractLsb' 8 8 = s.errflags ∧
    w.extractLsb' 16 16 = 0#16 ∧
    (w.extractLsb' 32 32).toNat = if s.mode = .unconfigured then 0 else (s.cfg.get 7).toNat % 2 ^ 32

/-- R187 (a), (c), (f), 20_memory.md R65: a read writes nothing but an ERRFLAGS bit on an error, answers the same again,
answers zero before the first tick, and never publishes a value that is not finite. -/
def Obligations.ReadsChangeNothing : Prop :=
  ∀ (i : Instr) (s t : State), IsRead i → exec i s = .next t → ∃ r : Response,
    t = { s with errflags := t.errflags, delivered := s.delivered ++ [r] } ∧
    (statusOf r = 0 → t.errflags = s.errflags) ∧
    (∃ u, exec i t = .next u ∧ u.delivered = t.delivered ++ [r]) ∧
    (Inv s → s.mode = .uninitialized → i ≠ .rdstat → r.data = 0#64) ∧
    (Inv s → i ≠ .rdstat → isFinite r.data = true)

/-! ### Errors (60_exceptions.md) -/

/-- R221: a command ends with one of the codes 0 to 6 that its row of the table allows, a packet that is no command with
code 3, and a code n other than 0 sets bit n of ERRFLAGS. -/
def Obligations.StatusCodesRule : Prop :=
  ∀ (s t : State) (p : Packet) (rest : List HostEvent), s.pending = .command p :: rest → step s = .next t →
    ∃ r, t.delivered = s.delivered ++ [r] ∧ statusOf r ≤ 6 ∧
      (∀ why, decode p = .error why → statusOf r = 3) ∧
      (∀ i, decode p = .ok i → StatusAllowed (statusOf r) i) ∧
      (decode p ≠ .ok .reset →
        t.errflags = if statusOf r = 0 then s.errflags else s.errflags ||| BitVec.ofNat 8 (2 ^ statusOf r))

/-- R229: a command that ends with an error writes the bit of its code and its response, whose data is 0 and whose class
is the old one, and nothing else but the SVALID of an UPDATE that ends with code 2 or 6; no command but RESET clears a
bit of ERRFLAGS, bits 0 and 7 stay 0 (10_state.md R22), and no command but RDSTAT depends on it. -/
def Obligations.ErrorEntryRule : Prop :=
  (∀ (s t : State) (p : Packet) (rest : List HostEvent) (r : Response),
    s.pending = .command p :: rest → step s = .next t → t.delivered = s.delivered ++ [r] → statusOf r ≠ 0 →
    r.data = 0#64 ∧ r.word.toNat = 2 ^ 24 * statusOf r + s.lclass.toNat ∧
    t = { s with
      pending := rest, delivered := s.delivered ++ [r],
      errflags := s.errflags ||| BitVec.ofNat 8 (2 ^ statusOf r),
      svalid := if decode p = .ok .update ∧ (statusOf r = 2 ∨ statusOf r = 6) then 0b000#3 else s.svalid }) ∧
  ∀ (i : Instr) (s t : State), exec i s = .next t →
    (i ≠ .reset → s.errflags &&& t.errflags = s.errflags) ∧ (FlagsLegal s → FlagsLegal t) ∧
    (i ≠ .rdstat → ∀ f, ∃ g, exec i { s with errflags := f } = .next { t with errflags := g })

/-- R227: an accepted tick has no intermediate value that is not finite: the filter's t1 to t4, the integrator's s, p and
h, the products and sums of the bank, ABS', q0 and q1, and the tick maximum. -/
def Obligations.IntermediatesAreFinite : Prop :=
  ∀ s : State, TickAccepted s →
    (∀ k : Fin 3,
      let t1 := fmul s.hpb0 (s.tickX0.get k)
      let t2 := fadd t1 (fmul s.hpb1 (s.x0.get k))
      let t3 := fadd t2 (fmul s.hpb2 (s.x1.get k))
      let t4 := fsub t3 (fmul s.hpa1 (s.y0.get k))
      let sum := fadd (s.y0.get k) (s.tickY0.get k)
      isFinite t1 = true ∧ isFinite t2 = true ∧ isFinite t3 = true ∧ isFinite t4 = true ∧
      isFinite (fmul s.hpb1 (s.x0.get k)) = true ∧ isFinite (fmul s.hpb2 (s.x1.get k)) = true ∧
      isFinite (fmul s.hpa1 (s.y0.get k)) = true ∧ isFinite (fmul s.hpa2 (s.y1.get k)) = true ∧
      isFinite sum = true ∧ isFinite (fmul sum s.dt) = true ∧
      isFinite (fdiv (fmul sum s.dt) Config.two) = true) ∧
    (∀ (j : Fin 32) (r k : Fin 2),
      let a0 := fmul ((s.oa j).get r 0) ((s.osc.get j).get 0 k)
      let a1 := fmul ((s.oa j).get r 1) ((s.osc.get j).get 1 k)
      let b0 := fmul ((s.ob j).get r 0) (s.y0.get k.castSucc)
      let b1 := fmul ((s.ob j).get r 1) (s.tickY0.get k.castSucc)
      isFinite a0 = true ∧ isFinite a1 = true ∧ isFinite b0 = true ∧ isFinite b1 = true ∧
      isFinite (fadd a0 a1) = true ∧ isFinite (fadd b0 b1) = true) ∧
    (∀ (j : Fin 32) (k : Fin 2),
      let abs := fadd ((s.tickOsc.get j).get 1 k) (s.tickV.get k.castSucc)
      isFinite abs = true ∧ isFinite (fmul abs abs) = true) ∧
    isFinite (tickMax s.tickSva) = true

/-! ### Arithmetic (00_scope.md) -/

/-- R9 for sums and differences of finite values: one rounding of the exact result. The sign of an exact zero is IEEE
754's as the model presumes it (log 12). -/
def Obligations.SumsRoundOnce : Prop :=
  ∀ a b : W64, isFinite a = true → isFinite b = true →
    (value a + value b ≠ 0 → RoundsTo (fadd a b) ((value a + value b : ℚ) : ℝ)) ∧
    (value a + value b = 0 → fadd a b = if signBit a ∧ signBit b then Config.negZero else Config.posZero) ∧
    (value a - value b ≠ 0 → RoundsTo (fsub a b) ((value a - value b : ℚ) : ℝ)) ∧
    (value a - value b = 0 → fsub a b = if signBit a ∧ ¬ signBit b then Config.negZero else Config.posZero)

/-- R9 for products of finite values. The sign of a zero product is presumed (log 12). -/
def Obligations.ProductsRoundOnce : Prop :=
  ∀ a b : W64, isFinite a = true → isFinite b = true →
    (value a * value b ≠ 0 → RoundsTo (fmul a b) ((value a * value b : ℚ) : ℝ)) ∧
    (value a * value b = 0 → fmul a b = if signBit a = signBit b then Config.posZero else Config.negZero)

/-- R9 for quotients of finite values by a finite non-zero value; a zero divisor and operands that are not finite are
left out. The sign of a zero quotient is presumed (log 12). -/
def Obligations.QuotientsRoundOnce : Prop :=
  ∀ a b : W64, isFinite a = true → isFinite b = true → value b ≠ 0 →
    (value a ≠ 0 → RoundsTo (fdiv a b) ((value a / value b : ℚ) : ℝ)) ∧
    (value a = 0 → fdiv a b = if signBit a = signBit b then Config.posZero else Config.negZero)

/-- R9 for square roots of finite values that are not negative; negative operands and operands that are not finite are
left out. The root of a zero of either sign is presumed to be that zero (log 12). -/
def Obligations.RootsRoundOnce : Prop :=
  ∀ a : W64, isFinite a = true →
    (0 < value a → RoundsTo (fsqrt a) (Real.sqrt ((value a : ℚ) : ℝ))) ∧ (value a = 0 → fsqrt a = a)

/-- R10: `flt` orders values, never holds of a NaN, and does not tell −0.0 from +0.0; `fmax` is the choice by it; the
constants of the rules have the values their names say. R10 does not write out the infinities, and says that the rules
only apply `flt` to finite values: that an infinity lies beyond every finite value, and is not less than itself, is IEEE
754's order as the model presumes it (log 12). -/
def Obligations.ComparisonRule : Prop :=
  (∀ a b : W64, isFinite a = true → isFinite b = true → (flt a b = true ↔ value a < value b)) ∧
  (∀ a b : W64, isNaN a = true ∨ isNaN b = true → flt a b = false) ∧
  (∀ a : W64, isFinite a = true →
    flt a Config.posInf = true ∧ flt Config.posInf a = false ∧ flt Config.negInf a = true ∧
      flt a Config.negInf = false) ∧
  flt Config.negInf Config.posInf = true ∧ flt Config.posInf Config.negInf = false ∧
  flt Config.posInf Config.posInf = false ∧ flt Config.negInf Config.negInf = false ∧
  (∀ a b : W64, fmax a b = if flt a b = true then b else a) ∧
  value Config.posZero = 0 ∧ value Config.one = 1 ∧ value Config.two = 2 ∧ value Config.threshold1 = 5 ∧
  value Config.threshold2 = 15 ∧ value Config.threshold3 = 50 ∧ value Config.threshold4 = 100

/-! ### The pseudo-instructions (30_encoding.md) -/

/-- R88: what the host has after each pseudo-instruction. With an instance, GETSPECTRUM gives the 32 spectrum values in
order, GETACC and GETVEL three components, GETMAX the maximum, and SNAPSHOT, whose length is read from the answer to its
RDSTAT, the WCAP window entries oldest first, all without another effect on the state; SAMPLE gives the response of the
UPDATE that follows its three LDS; CONSTRUCT gives the last response or the first error before it. -/
def Obligations.PseudoInstructionResults : Prop :=
  (∀ s : State, s.mode ≠ .unconfigured → s.pending = hostEvents getSpectrum →
    ∃ rs, Host.Core.run Sys2Proof.core 32 s = .next { s with pending := [], delivered := s.delivered ++ rs } ∧
      getSpectrumResult rs = s.sva.entries) ∧
  (∀ s : State, s.mode ≠ .unconfigured → s.pending = hostEvents getAcc →
    ∃ rs, Host.Core.run Sys2Proof.core 3 s = .next { s with pending := [], delivered := s.delivered ++ rs } ∧
      getAccResult rs = [s.y0.c0, s.y0.c1, s.y0.c2]) ∧
  (∀ s : State, s.mode ≠ .unconfigured → s.pending = hostEvents getVel →
    ∃ rs, Host.Core.run Sys2Proof.core 3 s = .next { s with pending := [], delivered := s.delivered ++ rs } ∧
      getVelResult rs = [s.v.c0, s.v.c1, s.v.c2]) ∧
  (∀ s : State, s.mode ≠ .unconfigured → s.pending = hostEvents getMax →
    ∃ rs, Host.Core.run Sys2Proof.core 1 s = .next { s with pending := [], delivered := s.delivered ++ rs } ∧
      getMaxResult rs = [s.max30]) ∧
  (∀ s : State, Inv s → s.mode ≠ .unconfigured → s.pending = hostEvents snapshotHead →
    ∃ status rs,
      Host.Core.run Sys2Proof.core 1 s = .next { s with pending := [], delivered := s.delivered ++ [status] } ∧
      snapshotLength status = s.wcap ∧
      Host.Core.run Sys2Proof.core s.wcap
          { s with pending := hostEvents (snapshotReads status), delivered := s.delivered ++ [status] } =
        .next { s with pending := [], delivered := s.delivered ++ status :: rs } ∧
      snapshotResult (status :: rs) = (List.range s.wcap).map s.windowEntry) ∧
  (∀ (s : State) (x y z : W64), s.mode ≠ .unconfigured → s.pending = hostEvents (sample x y z) →
    ∃ (t : State) (rs : List Response) (r : Response), Host.Core.run Sys2Proof.core 4 s = .next t ∧
      t.pending = [] ∧ t.delivered = s.delivered ++ rs ++ [r] ∧ sampleResult (rs ++ [r]) = some r ∧
      (∀ q ∈ rs, statusOf q = 0) ∧ rs.length = 3 ∧
      exec .update { s with sx := ⟨x, y, z⟩, svalid := 0b111#3, pending := [], delivered := s.delivered ++ rs } =
        .next t) ∧
  (∀ (rs : List Response) (r : Response), (∀ q ∈ rs, statusOf q = 0) → constructResult (rs ++ [r]) = some r) ∧
  ∀ (rs rest : List Response) (r : Response), (∀ q ∈ rs, statusOf q = 0) → statusOf r ≠ 0 →
    constructResult (rs ++ r :: rest) = some r
end

