-- ==== Sys2Proof/Laws/State.lean ====
section
/-! SUPPORT. What each named update does to each field of the state: one lemma per field per update. -/

namespace Sys2Proof.Machine

/-! ### `State.respond` -/

@[simp] theorem State.respond_mode (s : State) (st : BitVec 8) (d : W64) : (s.respond st d).mode = s.mode := rfl
@[simp] theorem State.respond_errflags (s : State) (st : BitVec 8) (d : W64) : (s.respond st d).errflags = s.errflags := rfl
@[simp] theorem State.respond_sx (s : State) (st : BitVec 8) (d : W64) : (s.respond st d).sx = s.sx := rfl
@[simp] theorem State.respond_svalid (s : State) (st : BitVec 8) (d : W64) : (s.respond st d).svalid = s.svalid := rfl
@[simp] theorem State.respond_cfg (s : State) (st : BitVec 8) (d : W64) : (s.respond st d).cfg = s.cfg := rfl
@[simp] theorem State.respond_cw (s : State) (st : BitVec 8) (d : W64) : (s.respond st d).cw = s.cw := rfl
@[simp] theorem State.respond_ref (s : State) (st : BitVec 8) (d : W64) : (s.respond st d).ref = s.ref := rfl
@[simp] theorem State.respond_x0 (s : State) (st : BitVec 8) (d : W64) : (s.respond st d).x0 = s.x0 := rfl
@[simp] theorem State.respond_x1 (s : State) (st : BitVec 8) (d : W64) : (s.respond st d).x1 = s.x1 := rfl
@[simp] theorem State.respond_x2 (s : State) (st : BitVec 8) (d : W64) : (s.respond st d).x2 = s.x2 := rfl
@[simp] theorem State.respond_y0 (s : State) (st : BitVec 8) (d : W64) : (s.respond st d).y0 = s.y0 := rfl
@[simp] theorem State.respond_y1 (s : State) (st : BitVec 8) (d : W64) : (s.respond st d).y1 = s.y1 := rfl
@[simp] theorem State.respond_v (s : State) (st : BitVec 8) (d : W64) : (s.respond st d).v = s.v := rfl
@[simp] theorem State.respond_osc (s : State) (st : BitVec 8) (d : W64) : (s.respond st d).osc = s.osc := rfl
@[simp] theorem State.respond_sva (s : State) (st : BitVec 8) (d : W64) : (s.respond st d).sva = s.sva := rfl
@[simp] theorem State.respond_win (s : State) (st : BitVec 8) (d : W64) : (s.respond st d).win = s.win := rfl
@[simp] theorem State.respond_wptr (s : State) (st : BitVec 8) (d : W64) : (s.respond st d).wptr = s.wptr := rfl
@[simp] theorem State.respond_max30 (s : State) (st : BitVec 8) (d : W64) : (s.respond st d).max30 = s.max30 := rfl
@[simp] theorem State.respond_lclass (s : State) (st : BitVec 8) (d : W64) : (s.respond st d).lclass = s.lclass := rfl
@[simp] theorem State.respond_wcapMax (s : State) (st : BitVec 8) (d : W64) : (s.respond st d).wcapMax = s.wcapMax := rfl
@[simp] theorem State.respond_pending (s : State) (st : BitVec 8) (d : W64) : (s.respond st d).pending = s.pending := rfl
@[simp] theorem State.respond_delivered (s : State) (st : BitVec 8) (d : W64) : (s.respond st d).delivered = s.delivered ++ [⟨responseWord st s.lclass, d⟩] := rfl

/-! ### `State.raise` -/

@[simp] theorem State.raise_mode (s : State) (e : ErrorCode) : (s.raise e).mode = s.mode := rfl
@[simp] theorem State.raise_errflags (s : State) (e : ErrorCode) : (s.raise e).errflags = setErrFlag s.errflags e := rfl
@[simp] theorem State.raise_sx (s : State) (e : ErrorCode) : (s.raise e).sx = s.sx := rfl
@[simp] theorem State.raise_svalid (s : State) (e : ErrorCode) : (s.raise e).svalid = s.svalid := rfl
@[simp] theorem State.raise_cfg (s : State) (e : ErrorCode) : (s.raise e).cfg = s.cfg := rfl
@[simp] theorem State.raise_cw (s : State) (e : ErrorCode) : (s.raise e).cw = s.cw := rfl
@[simp] theorem State.raise_ref (s : State) (e : ErrorCode) : (s.raise e).ref = s.ref := rfl
@[simp] theorem State.raise_x0 (s : State) (e : ErrorCode) : (s.raise e).x0 = s.x0 := rfl
@[simp] theorem State.raise_x1 (s : State) (e : ErrorCode) : (s.raise e).x1 = s.x1 := rfl
@[simp] theorem State.raise_x2 (s : State) (e : ErrorCode) : (s.raise e).x2 = s.x2 := rfl
@[simp] theorem State.raise_y0 (s : State) (e : ErrorCode) : (s.raise e).y0 = s.y0 := rfl
@[simp] theorem State.raise_y1 (s : State) (e : ErrorCode) : (s.raise e).y1 = s.y1 := rfl
@[simp] theorem State.raise_v (s : State) (e : ErrorCode) : (s.raise e).v = s.v := rfl
@[simp] theorem State.raise_osc (s : State) (e : ErrorCode) : (s.raise e).osc = s.osc := rfl
@[simp] theorem State.raise_sva (s : State) (e : ErrorCode) : (s.raise e).sva = s.sva := rfl
@[simp] theorem State.raise_win (s : State) (e : ErrorCode) : (s.raise e).win = s.win := rfl
@[simp] theorem State.raise_wptr (s : State) (e : ErrorCode) : (s.raise e).wptr = s.wptr := rfl
@[simp] theorem State.raise_max30 (s : State) (e : ErrorCode) : (s.raise e).max30 = s.max30 := rfl
@[simp] theorem State.raise_lclass (s : State) (e : ErrorCode) : (s.raise e).lclass = s.lclass := rfl
@[simp] theorem State.raise_wcapMax (s : State) (e : ErrorCode) : (s.raise e).wcapMax = s.wcapMax := rfl
@[simp] theorem State.raise_pending (s : State) (e : ErrorCode) : (s.raise e).pending = s.pending := rfl
@[simp] theorem State.raise_delivered (s : State) (e : ErrorCode) : (s.raise e).delivered = s.delivered ++ [⟨responseWord e.code s.lclass, 0#64⟩] := rfl

/-! ### `State.respondClass` -/

@[simp] theorem State.respondClass_mode (s : State) : s.respondClass.mode = s.mode := rfl
@[simp] theorem State.respondClass_errflags (s : State) : s.respondClass.errflags = s.errflags := rfl
@[simp] theorem State.respondClass_sx (s : State) : s.respondClass.sx = s.sx := rfl
@[simp] theorem State.respondClass_svalid (s : State) : s.respondClass.svalid = s.svalid := rfl
@[simp] theorem State.respondClass_cfg (s : State) : s.respondClass.cfg = s.cfg := rfl
@[simp] theorem State.respondClass_cw (s : State) : s.respondClass.cw = s.cw := rfl
@[simp] theorem State.respondClass_ref (s : State) : s.respondClass.ref = s.ref := rfl
@[simp] theorem State.respondClass_x0 (s : State) : s.respondClass.x0 = s.x0 := rfl
@[simp] theorem State.respondClass_x1 (s : State) : s.respondClass.x1 = s.x1 := rfl
@[simp] theorem State.respondClass_x2 (s : State) : s.respondClass.x2 = s.x2 := rfl
@[simp] theorem State.respondClass_y0 (s : State) : s.respondClass.y0 = s.y0 := rfl
@[simp] theorem State.respondClass_y1 (s : State) : s.respondClass.y1 = s.y1 := rfl
@[simp] theorem State.respondClass_v (s : State) : s.respondClass.v = s.v := rfl
@[simp] theorem State.respondClass_osc (s : State) : s.respondClass.osc = s.osc := rfl
@[simp] theorem State.respondClass_sva (s : State) : s.respondClass.sva = s.sva := rfl
@[simp] theorem State.respondClass_win (s : State) : s.respondClass.win = s.win := rfl
@[simp] theorem State.respondClass_wptr (s : State) : s.respondClass.wptr = s.wptr := rfl
@[simp] theorem State.respondClass_max30 (s : State) : s.respondClass.max30 = s.max30 := rfl
@[simp] theorem State.respondClass_lclass (s : State) : s.respondClass.lclass = s.lclass := rfl
@[simp] theorem State.respondClass_wcapMax (s : State) : s.respondClass.wcapMax = s.wcapMax := rfl
@[simp] theorem State.respondClass_pending (s : State) : s.respondClass.pending = s.pending := rfl
@[simp] theorem State.respondClass_delivered (s : State) : s.respondClass.delivered = s.delivered ++ [⟨responseWord statusOk s.lclass, s.lclass.setWidth 64⟩] := rfl

/-! ### `State.accept` -/

@[simp] theorem State.accept_mode (s : State) (rest : List HostEvent) : (s.accept rest).mode = s.mode := rfl
@[simp] theorem State.accept_errflags (s : State) (rest : List HostEvent) : (s.accept rest).errflags = s.errflags := rfl
@[simp] theorem State.accept_sx (s : State) (rest : List HostEvent) : (s.accept rest).sx = s.sx := rfl
@[simp] theorem State.accept_svalid (s : State) (rest : List HostEvent) : (s.accept rest).svalid = s.svalid := rfl
@[simp] theorem State.accept_cfg (s : State) (rest : List HostEvent) : (s.accept rest).cfg = s.cfg := rfl
@[simp] theorem State.accept_cw (s : State) (rest : List HostEvent) : (s.accept rest).cw = s.cw := rfl
@[simp] theorem State.accept_ref (s : State) (rest : List HostEvent) : (s.accept rest).ref = s.ref := rfl
@[simp] theorem State.accept_x0 (s : State) (rest : List HostEvent) : (s.accept rest).x0 = s.x0 := rfl
@[simp] theorem State.accept_x1 (s : State) (rest : List HostEvent) : (s.accept rest).x1 = s.x1 := rfl
@[simp] theorem State.accept_x2 (s : State) (rest : List HostEvent) : (s.accept rest).x2 = s.x2 := rfl
@[simp] theorem State.accept_y0 (s : State) (rest : List HostEvent) : (s.accept rest).y0 = s.y0 := rfl
@[simp] theorem State.accept_y1 (s : State) (rest : List HostEvent) : (s.accept rest).y1 = s.y1 := rfl
@[simp] theorem State.accept_v (s : State) (rest : List HostEvent) : (s.accept rest).v = s.v := rfl
@[simp] theorem State.accept_osc (s : State) (rest : List HostEvent) : (s.accept rest).osc = s.osc := rfl
@[simp] theorem State.accept_sva (s : State) (rest : List HostEvent) : (s.accept rest).sva = s.sva := rfl
@[simp] theorem State.accept_win (s : State) (rest : List HostEvent) : (s.accept rest).win = s.win := rfl
@[simp] theorem State.accept_wptr (s : State) (rest : List HostEvent) : (s.accept rest).wptr = s.wptr := rfl
@[simp] theorem State.accept_max30 (s : State) (rest : List HostEvent) : (s.accept rest).max30 = s.max30 := rfl
@[simp] theorem State.accept_lclass (s : State) (rest : List HostEvent) : (s.accept rest).lclass = s.lclass := rfl
@[simp] theorem State.accept_wcapMax (s : State) (rest : List HostEvent) : (s.accept rest).wcapMax = s.wcapMax := rfl
@[simp] theorem State.accept_pending (s : State) (rest : List HostEvent) : (s.accept rest).pending = rest := rfl
@[simp] theorem State.accept_delivered (s : State) (rest : List HostEvent) : (s.accept rest).delivered = s.delivered := rfl

/-! ### `State.present` -/

@[simp] theorem State.present_mode (s : State) (p : Packet) : (s.present p).mode = s.mode := rfl
@[simp] theorem State.present_errflags (s : State) (p : Packet) : (s.present p).errflags = s.errflags := rfl
@[simp] theorem State.present_sx (s : State) (p : Packet) : (s.present p).sx = s.sx := rfl
@[simp] theorem State.present_svalid (s : State) (p : Packet) : (s.present p).svalid = s.svalid := rfl
@[simp] theorem State.present_cfg (s : State) (p : Packet) : (s.present p).cfg = s.cfg := rfl
@[simp] theorem State.present_cw (s : State) (p : Packet) : (s.present p).cw = s.cw := rfl
@[simp] theorem State.present_ref (s : State) (p : Packet) : (s.present p).ref = s.ref := rfl
@[simp] theorem State.present_x0 (s : State) (p : Packet) : (s.present p).x0 = s.x0 := rfl
@[simp] theorem State.present_x1 (s : State) (p : Packet) : (s.present p).x1 = s.x1 := rfl
@[simp] theorem State.present_x2 (s : State) (p : Packet) : (s.present p).x2 = s.x2 := rfl
@[simp] theorem State.present_y0 (s : State) (p : Packet) : (s.present p).y0 = s.y0 := rfl
@[simp] theorem State.present_y1 (s : State) (p : Packet) : (s.present p).y1 = s.y1 := rfl
@[simp] theorem State.present_v (s : State) (p : Packet) : (s.present p).v = s.v := rfl
@[simp] theorem State.present_osc (s : State) (p : Packet) : (s.present p).osc = s.osc := rfl
@[simp] theorem State.present_sva (s : State) (p : Packet) : (s.present p).sva = s.sva := rfl
@[simp] theorem State.present_win (s : State) (p : Packet) : (s.present p).win = s.win := rfl
@[simp] theorem State.present_wptr (s : State) (p : Packet) : (s.present p).wptr = s.wptr := rfl
@[simp] theorem State.present_max30 (s : State) (p : Packet) : (s.present p).max30 = s.max30 := rfl
@[simp] theorem State.present_lclass (s : State) (p : Packet) : (s.present p).lclass = s.lclass := rfl
@[simp] theorem State.present_wcapMax (s : State) (p : Packet) : (s.present p).wcapMax = s.wcapMax := rfl
@[simp] theorem State.present_pending (s : State) (p : Packet) : (s.present p).pending = HostEvent.command p :: s.pending := rfl
@[simp] theorem State.present_delivered (s : State) (p : Packet) : (s.present p).delivered = s.delivered := rfl

/-! ### `State.unstage` -/

@[simp] theorem State.unstage_mode (s : State) : s.unstage.mode = s.mode := rfl
@[simp] theorem State.unstage_errflags (s : State) : s.unstage.errflags = s.errflags := rfl
@[simp] theorem State.unstage_sx (s : State) : s.unstage.sx = s.sx := rfl
@[simp] theorem State.unstage_svalid (s : State) : s.unstage.svalid = 0b000#3 := rfl
@[simp] theorem State.unstage_cfg (s : State) : s.unstage.cfg = s.cfg := rfl
@[simp] theorem State.unstage_cw (s : State) : s.unstage.cw = s.cw := rfl
@[simp] theorem State.unstage_ref (s : State) : s.unstage.ref = s.ref := rfl
@[simp] theorem State.unstage_x0 (s : State) : s.unstage.x0 = s.x0 := rfl
@[simp] theorem State.unstage_x1 (s : State) : s.unstage.x1 = s.x1 := rfl
@[simp] theorem State.unstage_x2 (s : State) : s.unstage.x2 = s.x2 := rfl
@[simp] theorem State.unstage_y0 (s : State) : s.unstage.y0 = s.y0 := rfl
@[simp] theorem State.unstage_y1 (s : State) : s.unstage.y1 = s.y1 := rfl
@[simp] theorem State.unstage_v (s : State) : s.unstage.v = s.v := rfl
@[simp] theorem State.unstage_osc (s : State) : s.unstage.osc = s.osc := rfl
@[simp] theorem State.unstage_sva (s : State) : s.unstage.sva = s.sva := rfl
@[simp] theorem State.unstage_win (s : State) : s.unstage.win = s.win := rfl
@[simp] theorem State.unstage_wptr (s : State) : s.unstage.wptr = s.wptr := rfl
@[simp] theorem State.unstage_max30 (s : State) : s.unstage.max30 = s.max30 := rfl
@[simp] theorem State.unstage_lclass (s : State) : s.unstage.lclass = s.lclass := rfl
@[simp] theorem State.unstage_wcapMax (s : State) : s.unstage.wcapMax = s.wcapMax := rfl
@[simp] theorem State.unstage_pending (s : State) : s.unstage.pending = s.pending := rfl
@[simp] theorem State.unstage_delivered (s : State) : s.unstage.delivered = s.delivered := rfl

/-! ### `State.stage` -/

@[simp] theorem State.stage_mode (s : State) (k : Fin 3) (d : W64) : (s.stage k d).mode = s.mode := rfl
@[simp] theorem State.stage_errflags (s : State) (k : Fin 3) (d : W64) : (s.stage k d).errflags = s.errflags := rfl
@[simp] theorem State.stage_sx (s : State) (k : Fin 3) (d : W64) : (s.stage k d).sx = s.sx.set k d := rfl
@[simp] theorem State.stage_svalid (s : State) (k : Fin 3) (d : W64) : (s.stage k d).svalid = setValid s.svalid k.val := rfl
@[simp] theorem State.stage_cfg (s : State) (k : Fin 3) (d : W64) : (s.stage k d).cfg = s.cfg := rfl
@[simp] theorem State.stage_cw (s : State) (k : Fin 3) (d : W64) : (s.stage k d).cw = s.cw := rfl
@[simp] theorem State.stage_ref (s : State) (k : Fin 3) (d : W64) : (s.stage k d).ref = s.ref := rfl
@[simp] theorem State.stage_x0 (s : State) (k : Fin 3) (d : W64) : (s.stage k d).x0 = s.x0 := rfl
@[simp] theorem State.stage_x1 (s : State) (k : Fin 3) (d : W64) : (s.stage k d).x1 = s.x1 := rfl
@[simp] theorem State.stage_x2 (s : State) (k : Fin 3) (d : W64) : (s.stage k d).x2 = s.x2 := rfl
@[simp] theorem State.stage_y0 (s : State) (k : Fin 3) (d : W64) : (s.stage k d).y0 = s.y0 := rfl
@[simp] theorem State.stage_y1 (s : State) (k : Fin 3) (d : W64) : (s.stage k d).y1 = s.y1 := rfl
@[simp] theorem State.stage_v (s : State) (k : Fin 3) (d : W64) : (s.stage k d).v = s.v := rfl
@[simp] theorem State.stage_osc (s : State) (k : Fin 3) (d : W64) : (s.stage k d).osc = s.osc := rfl
@[simp] theorem State.stage_sva (s : State) (k : Fin 3) (d : W64) : (s.stage k d).sva = s.sva := rfl
@[simp] theorem State.stage_win (s : State) (k : Fin 3) (d : W64) : (s.stage k d).win = s.win := rfl
@[simp] theorem State.stage_wptr (s : State) (k : Fin 3) (d : W64) : (s.stage k d).wptr = s.wptr := rfl
@[simp] theorem State.stage_max30 (s : State) (k : Fin 3) (d : W64) : (s.stage k d).max30 = s.max30 := rfl
@[simp] theorem State.stage_lclass (s : State) (k : Fin 3) (d : W64) : (s.stage k d).lclass = s.lclass := rfl
@[simp] theorem State.stage_wcapMax (s : State) (k : Fin 3) (d : W64) : (s.stage k d).wcapMax = s.wcapMax := rfl
@[simp] theorem State.stage_pending (s : State) (k : Fin 3) (d : W64) : (s.stage k d).pending = s.pending := rfl
@[simp] theorem State.stage_delivered (s : State) (k : Fin 3) (d : W64) : (s.stage k d).delivered = s.delivered := rfl

/-! ### `State.writeCfg` -/

@[simp] theorem State.writeCfg_mode (s : State) (i : Fin 264) (d : W64) : (s.writeCfg i d).mode = s.mode := rfl
@[simp] theorem State.writeCfg_errflags (s : State) (i : Fin 264) (d : W64) : (s.writeCfg i d).errflags = s.errflags := rfl
@[simp] theorem State.writeCfg_sx (s : State) (i : Fin 264) (d : W64) : (s.writeCfg i d).sx = s.sx := rfl
@[simp] theorem State.writeCfg_svalid (s : State) (i : Fin 264) (d : W64) : (s.writeCfg i d).svalid = s.svalid := rfl
@[simp] theorem State.writeCfg_cfg (s : State) (i : Fin 264) (d : W64) : (s.writeCfg i d).cfg = s.cfg.set i d := rfl
@[simp] theorem State.writeCfg_cw (s : State) (i : Fin 264) (d : W64) : (s.writeCfg i d).cw = s.cw.set i true := rfl
@[simp] theorem State.writeCfg_ref (s : State) (i : Fin 264) (d : W64) : (s.writeCfg i d).ref = s.ref := rfl
@[simp] theorem State.writeCfg_x0 (s : State) (i : Fin 264) (d : W64) : (s.writeCfg i d).x0 = s.x0 := rfl
@[simp] theorem State.writeCfg_x1 (s : State) (i : Fin 264) (d : W64) : (s.writeCfg i d).x1 = s.x1 := rfl
@[simp] theorem State.writeCfg_x2 (s : State) (i : Fin 264) (d : W64) : (s.writeCfg i d).x2 = s.x2 := rfl
@[simp] theorem State.writeCfg_y0 (s : State) (i : Fin 264) (d : W64) : (s.writeCfg i d).y0 = s.y0 := rfl
@[simp] theorem State.writeCfg_y1 (s : State) (i : Fin 264) (d : W64) : (s.writeCfg i d).y1 = s.y1 := rfl
@[simp] theorem State.writeCfg_v (s : State) (i : Fin 264) (d : W64) : (s.writeCfg i d).v = s.v := rfl
@[simp] theorem State.writeCfg_osc (s : State) (i : Fin 264) (d : W64) : (s.writeCfg i d).osc = s.osc := rfl
@[simp] theorem State.writeCfg_sva (s : State) (i : Fin 264) (d : W64) : (s.writeCfg i d).sva = s.sva := rfl
@[simp] theorem State.writeCfg_win (s : State) (i : Fin 264) (d : W64) : (s.writeCfg i d).win = s.win := rfl
@[simp] theorem State.writeCfg_wptr (s : State) (i : Fin 264) (d : W64) : (s.writeCfg i d).wptr = s.wptr := rfl
@[simp] theorem State.writeCfg_max30 (s : State) (i : Fin 264) (d : W64) : (s.writeCfg i d).max30 = s.max30 := rfl
@[simp] theorem State.writeCfg_lclass (s : State) (i : Fin 264) (d : W64) : (s.writeCfg i d).lclass = s.lclass := rfl
@[simp] theorem State.writeCfg_wcapMax (s : State) (i : Fin 264) (d : W64) : (s.writeCfg i d).wcapMax = s.wcapMax := rfl
@[simp] theorem State.writeCfg_pending (s : State) (i : Fin 264) (d : W64) : (s.writeCfg i d).pending = s.pending := rfl
@[simp] theorem State.writeCfg_delivered (s : State) (i : Fin 264) (d : W64) : (s.writeCfg i d).delivered = s.delivered := rfl

/-! ### `State.createInstance` -/

@[simp] theorem State.createInstance_mode (s : State) : s.createInstance.mode = Mode.uninitialized := rfl
@[simp] theorem State.createInstance_errflags (s : State) : s.createInstance.errflags = s.errflags := rfl
@[simp] theorem State.createInstance_sx (s : State) : s.createInstance.sx = s.sx := rfl
@[simp] theorem State.createInstance_svalid (s : State) : s.createInstance.svalid = 0b000#3 := rfl
@[simp] theorem State.createInstance_cfg (s : State) : s.createInstance.cfg = s.cfg := rfl
@[simp] theorem State.createInstance_cw (s : State) : s.createInstance.cw = s.cw := rfl
@[simp] theorem State.createInstance_ref (s : State) : s.createInstance.ref = Vec3.zero := rfl
@[simp] theorem State.createInstance_x0 (s : State) : s.createInstance.x0 = Vec3.zero := rfl
@[simp] theorem State.createInstance_x1 (s : State) : s.createInstance.x1 = Vec3.zero := rfl
@[simp] theorem State.createInstance_x2 (s : State) : s.createInstance.x2 = Vec3.zero := rfl
@[simp] theorem State.createInstance_y0 (s : State) : s.createInstance.y0 = Vec3.zero := rfl
@[simp] theorem State.createInstance_y1 (s : State) : s.createInstance.y1 = Vec3.zero := rfl
@[simp] theorem State.createInstance_v (s : State) : s.createInstance.v = Vec3.zero := rfl
@[simp] theorem State.createInstance_osc (s : State) : s.createInstance.osc = Table.fill 32 Mat2.zero := rfl
@[simp] theorem State.createInstance_sva (s : State) : s.createInstance.sva = Table.fill 32 Config.posZero := rfl
@[simp] theorem State.createInstance_win (s : State) : s.createInstance.win = s.win.clearBelow s.wcap := rfl
@[simp] theorem State.createInstance_wptr (s : State) : s.createInstance.wptr = 0#16 := rfl
@[simp] theorem State.createInstance_max30 (s : State) : s.createInstance.max30 = Config.posZero := rfl
@[simp] theorem State.createInstance_lclass (s : State) : s.createInstance.lclass = 0#3 := rfl
@[simp] theorem State.createInstance_wcapMax (s : State) : s.createInstance.wcapMax = s.wcapMax := rfl
@[simp] theorem State.createInstance_pending (s : State) : s.createInstance.pending = s.pending := rfl
@[simp] theorem State.createInstance_delivered (s : State) : s.createInstance.delivered = s.delivered := rfl

/-! ### `State.toReset` -/

@[simp] theorem State.toReset_mode (s : State) : s.toReset.mode = Mode.unconfigured := rfl
@[simp] theorem State.toReset_errflags (s : State) : s.toReset.errflags = 0x00#8 := rfl
@[simp] theorem State.toReset_sx (s : State) : s.toReset.sx = ⟨0#64, 0#64, 0#64⟩ := rfl
@[simp] theorem State.toReset_svalid (s : State) : s.toReset.svalid = 0b000#3 := rfl
@[simp] theorem State.toReset_cfg (s : State) : s.toReset.cfg = Table.fill 264 0#64 := rfl
@[simp] theorem State.toReset_cw (s : State) : s.toReset.cw = Table.fill 264 false := rfl
@[simp] theorem State.toReset_ref (s : State) : s.toReset.ref = Vec3.zero := rfl
@[simp] theorem State.toReset_x0 (s : State) : s.toReset.x0 = Vec3.zero := rfl
@[simp] theorem State.toReset_x1 (s : State) : s.toReset.x1 = Vec3.zero := rfl
@[simp] theorem State.toReset_x2 (s : State) : s.toReset.x2 = Vec3.zero := rfl
@[simp] theorem State.toReset_y0 (s : State) : s.toReset.y0 = Vec3.zero := rfl
@[simp] theorem State.toReset_y1 (s : State) : s.toReset.y1 = Vec3.zero := rfl
@[simp] theorem State.toReset_v (s : State) : s.toReset.v = Vec3.zero := rfl
@[simp] theorem State.toReset_osc (s : State) : s.toReset.osc = Table.fill 32 Mat2.zero := rfl
@[simp] theorem State.toReset_sva (s : State) : s.toReset.sva = Table.fill 32 Config.posZero := rfl
@[simp] theorem State.toReset_win (s : State) : s.toReset.win = [] := rfl
@[simp] theorem State.toReset_wptr (s : State) : s.toReset.wptr = 0#16 := rfl
@[simp] theorem State.toReset_max30 (s : State) : s.toReset.max30 = Config.posZero := rfl
@[simp] theorem State.toReset_lclass (s : State) : s.toReset.lclass = 0#3 := rfl
@[simp] theorem State.toReset_wcapMax (s : State) : s.toReset.wcapMax = s.wcapMax := rfl
@[simp] theorem State.toReset_pending (s : State) : s.toReset.pending = s.pending := rfl
@[simp] theorem State.toReset_delivered (s : State) : s.toReset.delivered = s.delivered := rfl

/-! ### `State.commit` -/

@[simp] theorem State.commit_mode (s : State) (t : Tick) : (s.commit t).mode = Mode.running := rfl
@[simp] theorem State.commit_errflags (s : State) (t : Tick) : (s.commit t).errflags = s.errflags := rfl
@[simp] theorem State.commit_sx (s : State) (t : Tick) : (s.commit t).sx = s.sx := rfl
@[simp] theorem State.commit_svalid (s : State) (t : Tick) : (s.commit t).svalid = s.svalid := rfl
@[simp] theorem State.commit_cfg (s : State) (t : Tick) : (s.commit t).cfg = s.cfg := rfl
@[simp] theorem State.commit_cw (s : State) (t : Tick) : (s.commit t).cw = s.cw := rfl
@[simp] theorem State.commit_ref (s : State) (t : Tick) : (s.commit t).ref = t.ref := rfl
@[simp] theorem State.commit_x0 (s : State) (t : Tick) : (s.commit t).x0 = t.x0 := rfl
@[simp] theorem State.commit_x1 (s : State) (t : Tick) : (s.commit t).x1 = s.x0 := rfl
@[simp] theorem State.commit_x2 (s : State) (t : Tick) : (s.commit t).x2 = s.x1 := rfl
@[simp] theorem State.commit_y0 (s : State) (t : Tick) : (s.commit t).y0 = t.y0 := rfl
@[simp] theorem State.commit_y1 (s : State) (t : Tick) : (s.commit t).y1 = s.y0 := rfl
@[simp] theorem State.commit_v (s : State) (t : Tick) : (s.commit t).v = t.v := rfl
@[simp] theorem State.commit_osc (s : State) (t : Tick) : (s.commit t).osc = t.osc := rfl
@[simp] theorem State.commit_sva (s : State) (t : Tick) : (s.commit t).sva = t.sva := rfl
@[simp] theorem State.commit_win (s : State) (t : Tick) : (s.commit t).win = s.insertedWindow t := rfl
@[simp] theorem State.commit_wptr (s : State) (t : Tick) : (s.commit t).wptr = nextPointer s.wptr s.wcap := rfl
@[simp] theorem State.commit_max30 (s : State) (t : Tick) : (s.commit t).max30 = s.insertedMax t := rfl
@[simp] theorem State.commit_lclass (s : State) (t : Tick) : (s.commit t).lclass = classify (s.insertedMax t) := rfl
@[simp] theorem State.commit_wcapMax (s : State) (t : Tick) : (s.commit t).wcapMax = s.wcapMax := rfl
@[simp] theorem State.commit_pending (s : State) (t : Tick) : (s.commit t).pending = s.pending := rfl
@[simp] theorem State.commit_delivered (s : State) (t : Tick) : (s.commit t).delivered = s.delivered := rfl

/-! ### The configuration views read CFG alone -/

@[simp] theorem State.respond_wcapField (s : State) (st : BitVec 8) (d : W64) : (s.respond st d).wcapField = s.wcapField := rfl
@[simp] theorem State.raise_wcapField (s : State) (e : ErrorCode) : (s.raise e).wcapField = s.wcapField := rfl
@[simp] theorem State.respondClass_wcapField (s : State) : s.respondClass.wcapField = s.wcapField := rfl
@[simp] theorem State.accept_wcapField (s : State) (rest : List HostEvent) : (s.accept rest).wcapField = s.wcapField := rfl
@[simp] theorem State.present_wcapField (s : State) (p : Packet) : (s.present p).wcapField = s.wcapField := rfl
@[simp] theorem State.unstage_wcapField (s : State) : s.unstage.wcapField = s.wcapField := rfl
@[simp] theorem State.stage_wcapField (s : State) (k : Fin 3) (d : W64) : (s.stage k d).wcapField = s.wcapField := rfl
@[simp] theorem State.createInstance_wcapField (s : State) : s.createInstance.wcapField = s.wcapField := rfl
@[simp] theorem State.commit_wcapField (s : State) (t : Tick) : (s.commit t).wcapField = s.wcapField := rfl
@[simp] theorem State.respond_wcap (s : State) (st : BitVec 8) (d : W64) : (s.respond st d).wcap = s.wcap := rfl
@[simp] theorem State.raise_wcap (s : State) (e : ErrorCode) : (s.raise e).wcap = s.wcap := rfl
@[simp] theorem State.respondClass_wcap (s : State) : s.respondClass.wcap = s.wcap := rfl
@[simp] theorem State.accept_wcap (s : State) (rest : List HostEvent) : (s.accept rest).wcap = s.wcap := rfl
@[simp] theorem State.present_wcap (s : State) (p : Packet) : (s.present p).wcap = s.wcap := rfl
@[simp] theorem State.unstage_wcap (s : State) : s.unstage.wcap = s.wcap := rfl
@[simp] theorem State.stage_wcap (s : State) (k : Fin 3) (d : W64) : (s.stage k d).wcap = s.wcap := rfl
@[simp] theorem State.createInstance_wcap (s : State) : s.createInstance.wcap = s.wcap := rfl
@[simp] theorem State.commit_wcap (s : State) (t : Tick) : (s.commit t).wcap = s.wcap := rfl
@[simp] theorem State.respond_hpa0 (s : State) (st : BitVec 8) (d : W64) : (s.respond st d).hpa0 = s.hpa0 := rfl
@[simp] theorem State.raise_hpa0 (s : State) (e : ErrorCode) : (s.raise e).hpa0 = s.hpa0 := rfl
@[simp] theorem State.respondClass_hpa0 (s : State) : s.respondClass.hpa0 = s.hpa0 := rfl
@[simp] theorem State.accept_hpa0 (s : State) (rest : List HostEvent) : (s.accept rest).hpa0 = s.hpa0 := rfl
@[simp] theorem State.present_hpa0 (s : State) (p : Packet) : (s.present p).hpa0 = s.hpa0 := rfl
@[simp] theorem State.unstage_hpa0 (s : State) : s.unstage.hpa0 = s.hpa0 := rfl
@[simp] theorem State.stage_hpa0 (s : State) (k : Fin 3) (d : W64) : (s.stage k d).hpa0 = s.hpa0 := rfl
@[simp] theorem State.createInstance_hpa0 (s : State) : s.createInstance.hpa0 = s.hpa0 := rfl
@[simp] theorem State.commit_hpa0 (s : State) (t : Tick) : (s.commit t).hpa0 = s.hpa0 := rfl
@[simp] theorem State.respond_dt (s : State) (st : BitVec 8) (d : W64) : (s.respond st d).dt = s.dt := rfl
@[simp] theorem State.raise_dt (s : State) (e : ErrorCode) : (s.raise e).dt = s.dt := rfl
@[simp] theorem State.respondClass_dt (s : State) : s.respondClass.dt = s.dt := rfl
@[simp] theorem State.accept_dt (s : State) (rest : List HostEvent) : (s.accept rest).dt = s.dt := rfl
@[simp] theorem State.present_dt (s : State) (p : Packet) : (s.present p).dt = s.dt := rfl
@[simp] theorem State.unstage_dt (s : State) : s.unstage.dt = s.dt := rfl
@[simp] theorem State.stage_dt (s : State) (k : Fin 3) (d : W64) : (s.stage k d).dt = s.dt := rfl
@[simp] theorem State.createInstance_dt (s : State) : s.createInstance.dt = s.dt := rfl
@[simp] theorem State.commit_dt (s : State) (t : Tick) : (s.commit t).dt = s.dt := rfl
@[simp] theorem State.respond_hpb0 (s : State) (st : BitVec 8) (d : W64) : (s.respond st d).hpb0 = s.hpb0 := rfl
@[simp] theorem State.raise_hpb0 (s : State) (e : ErrorCode) : (s.raise e).hpb0 = s.hpb0 := rfl
@[simp] theorem State.respondClass_hpb0 (s : State) : s.respondClass.hpb0 = s.hpb0 := rfl
@[simp] theorem State.accept_hpb0 (s : State) (rest : List HostEvent) : (s.accept rest).hpb0 = s.hpb0 := rfl
@[simp] theorem State.present_hpb0 (s : State) (p : Packet) : (s.present p).hpb0 = s.hpb0 := rfl
@[simp] theorem State.unstage_hpb0 (s : State) : s.unstage.hpb0 = s.hpb0 := rfl
@[simp] theorem State.stage_hpb0 (s : State) (k : Fin 3) (d : W64) : (s.stage k d).hpb0 = s.hpb0 := rfl
@[simp] theorem State.createInstance_hpb0 (s : State) : s.createInstance.hpb0 = s.hpb0 := rfl
@[simp] theorem State.commit_hpb0 (s : State) (t : Tick) : (s.commit t).hpb0 = s.hpb0 := rfl
@[simp] theorem State.respond_hpb1 (s : State) (st : BitVec 8) (d : W64) : (s.respond st d).hpb1 = s.hpb1 := rfl
@[simp] theorem State.raise_hpb1 (s : State) (e : ErrorCode) : (s.raise e).hpb1 = s.hpb1 := rfl
@[simp] theorem State.respondClass_hpb1 (s : State) : s.respondClass.hpb1 = s.hpb1 := rfl
@[simp] theorem State.accept_hpb1 (s : State) (rest : List HostEvent) : (s.accept rest).hpb1 = s.hpb1 := rfl
@[simp] theorem State.present_hpb1 (s : State) (p : Packet) : (s.present p).hpb1 = s.hpb1 := rfl
@[simp] theorem State.unstage_hpb1 (s : State) : s.unstage.hpb1 = s.hpb1 := rfl
@[simp] theorem State.stage_hpb1 (s : State) (k : Fin 3) (d : W64) : (s.stage k d).hpb1 = s.hpb1 := rfl
@[simp] theorem State.createInstance_hpb1 (s : State) : s.createInstance.hpb1 = s.hpb1 := rfl
@[simp] theorem State.commit_hpb1 (s : State) (t : Tick) : (s.commit t).hpb1 = s.hpb1 := rfl
@[simp] theorem State.respond_hpb2 (s : State) (st : BitVec 8) (d : W64) : (s.respond st d).hpb2 = s.hpb2 := rfl
@[simp] theorem State.raise_hpb2 (s : State) (e : ErrorCode) : (s.raise e).hpb2 = s.hpb2 := rfl
@[simp] theorem State.respondClass_hpb2 (s : State) : s.respondClass.hpb2 = s.hpb2 := rfl
@[simp] theorem State.accept_hpb2 (s : State) (rest : List HostEvent) : (s.accept rest).hpb2 = s.hpb2 := rfl
@[simp] theorem State.present_hpb2 (s : State) (p : Packet) : (s.present p).hpb2 = s.hpb2 := rfl
@[simp] theorem State.unstage_hpb2 (s : State) : s.unstage.hpb2 = s.hpb2 := rfl
@[simp] theorem State.stage_hpb2 (s : State) (k : Fin 3) (d : W64) : (s.stage k d).hpb2 = s.hpb2 := rfl
@[simp] theorem State.createInstance_hpb2 (s : State) : s.createInstance.hpb2 = s.hpb2 := rfl
@[simp] theorem State.commit_hpb2 (s : State) (t : Tick) : (s.commit t).hpb2 = s.hpb2 := rfl
@[simp] theorem State.respond_hpa1 (s : State) (st : BitVec 8) (d : W64) : (s.respond st d).hpa1 = s.hpa1 := rfl
@[simp] theorem State.raise_hpa1 (s : State) (e : ErrorCode) : (s.raise e).hpa1 = s.hpa1 := rfl
@[simp] theorem State.respondClass_hpa1 (s : State) : s.respondClass.hpa1 = s.hpa1 := rfl
@[simp] theorem State.accept_hpa1 (s : State) (rest : List HostEvent) : (s.accept rest).hpa1 = s.hpa1 := rfl
@[simp] theorem State.present_hpa1 (s : State) (p : Packet) : (s.present p).hpa1 = s.hpa1 := rfl
@[simp] theorem State.unstage_hpa1 (s : State) : s.unstage.hpa1 = s.hpa1 := rfl
@[simp] theorem State.stage_hpa1 (s : State) (k : Fin 3) (d : W64) : (s.stage k d).hpa1 = s.hpa1 := rfl
@[simp] theorem State.createInstance_hpa1 (s : State) : s.createInstance.hpa1 = s.hpa1 := rfl
@[simp] theorem State.commit_hpa1 (s : State) (t : Tick) : (s.commit t).hpa1 = s.hpa1 := rfl
@[simp] theorem State.respond_hpa2 (s : State) (st : BitVec 8) (d : W64) : (s.respond st d).hpa2 = s.hpa2 := rfl
@[simp] theorem State.raise_hpa2 (s : State) (e : ErrorCode) : (s.raise e).hpa2 = s.hpa2 := rfl
@[simp] theorem State.respondClass_hpa2 (s : State) : s.respondClass.hpa2 = s.hpa2 := rfl
@[simp] theorem State.accept_hpa2 (s : State) (rest : List HostEvent) : (s.accept rest).hpa2 = s.hpa2 := rfl
@[simp] theorem State.present_hpa2 (s : State) (p : Packet) : (s.present p).hpa2 = s.hpa2 := rfl
@[simp] theorem State.unstage_hpa2 (s : State) : s.unstage.hpa2 = s.hpa2 := rfl
@[simp] theorem State.stage_hpa2 (s : State) (k : Fin 3) (d : W64) : (s.stage k d).hpa2 = s.hpa2 := rfl
@[simp] theorem State.createInstance_hpa2 (s : State) : s.createInstance.hpa2 = s.hpa2 := rfl
@[simp] theorem State.commit_hpa2 (s : State) (t : Tick) : (s.commit t).hpa2 = s.hpa2 := rfl

@[simp] theorem State.respond_oa (s : State) (st : BitVec 8) (d : W64) (j : Fin 32) : (s.respond st d).oa j = s.oa j := rfl
@[simp] theorem State.respond_ob (s : State) (st : BitVec 8) (d : W64) (j : Fin 32) : (s.respond st d).ob j = s.ob j := rfl
@[simp] theorem State.raise_oa (s : State) (e : ErrorCode) (j : Fin 32) : (s.raise e).oa j = s.oa j := rfl
@[simp] theorem State.raise_ob (s : State) (e : ErrorCode) (j : Fin 32) : (s.raise e).ob j = s.ob j := rfl
@[simp] theorem State.respondClass_oa (s : State) (j : Fin 32) : s.respondClass.oa j = s.oa j := rfl
@[simp] theorem State.respondClass_ob (s : State) (j : Fin 32) : s.respondClass.ob j = s.ob j := rfl
@[simp] theorem State.accept_oa (s : State) (rest : List HostEvent) (j : Fin 32) : (s.accept rest).oa j = s.oa j := rfl
@[simp] theorem State.accept_ob (s : State) (rest : List HostEvent) (j : Fin 32) : (s.accept rest).ob j = s.ob j := rfl
@[simp] theorem State.present_oa (s : State) (p : Packet) (j : Fin 32) : (s.present p).oa j = s.oa j := rfl
@[simp] theorem State.present_ob (s : State) (p : Packet) (j : Fin 32) : (s.present p).ob j = s.ob j := rfl
@[simp] theorem State.unstage_oa (s : State) (j : Fin 32) : s.unstage.oa j = s.oa j := rfl
@[simp] theorem State.unstage_ob (s : State) (j : Fin 32) : s.unstage.ob j = s.ob j := rfl
@[simp] theorem State.stage_oa (s : State) (k : Fin 3) (d : W64) (j : Fin 32) : (s.stage k d).oa j = s.oa j := rfl
@[simp] theorem State.stage_ob (s : State) (k : Fin 3) (d : W64) (j : Fin 32) : (s.stage k d).ob j = s.ob j := rfl
@[simp] theorem State.createInstance_oa (s : State) (j : Fin 32) : s.createInstance.oa j = s.oa j := rfl
@[simp] theorem State.createInstance_ob (s : State) (j : Fin 32) : s.createInstance.ob j = s.ob j := rfl
@[simp] theorem State.commit_oa (s : State) (t : Tick) (j : Fin 32) : (s.commit t).oa j = s.oa j := rfl
@[simp] theorem State.commit_ob (s : State) (t : Tick) (j : Fin 32) : (s.commit t).ob j = s.ob j := rfl

@[simp] theorem State.respond_cfgValid (s : State) (st : BitVec 8) (d : W64) : (s.respond st d).cfgValid = s.cfgValid := rfl
@[simp] theorem State.raise_cfgValid (s : State) (e : ErrorCode) : (s.raise e).cfgValid = s.cfgValid := rfl
@[simp] theorem State.respondClass_cfgValid (s : State) : s.respondClass.cfgValid = s.cfgValid := rfl
@[simp] theorem State.accept_cfgValid (s : State) (rest : List HostEvent) : (s.accept rest).cfgValid = s.cfgValid := rfl
@[simp] theorem State.present_cfgValid (s : State) (p : Packet) : (s.present p).cfgValid = s.cfgValid := rfl
@[simp] theorem State.unstage_cfgValid (s : State) : s.unstage.cfgValid = s.cfgValid := rfl
@[simp] theorem State.stage_cfgValid (s : State) (k : Fin 3) (d : W64) : (s.stage k d).cfgValid = s.cfgValid := rfl
@[simp] theorem State.createInstance_cfgValid (s : State) : s.createInstance.cfgValid = s.cfgValid := rfl
@[simp] theorem State.commit_cfgValid (s : State) (t : Tick) : (s.commit t).cfgValid = s.cfgValid := rfl

/-- Taking the sample off the staging registers changes nothing the tick is computed from. -/
@[simp] theorem State.unstage_tick (s : State) : s.unstage.tick = s.tick := rfl

end Sys2Proof.Machine
end

