-- ==== Sys2Proof/Laws/Ops.lean ====
section
/-! SUPPORT. One lemma per shared operation that says what it can do: banks, vectors, the window store, the guards
of the commands, the port. -/

namespace Sys2Proof.Machine

/-! ### Banks -/

theorem Table.ext {α : Type} {n : Nat} {t u : Table α n} (h : ∀ i, t.get i = u.get i) : t = u := by
  obtain ⟨l, hl⟩ := t
  obtain ⟨m, hm⟩ := u
  have : l = m := List.ext_getElem (hl.trans hm.symm) fun i hi _ => h ⟨i, hl ▸ hi⟩
  subst this
  rfl

theorem Table.get_set {α : Type} {n : Nat} (t : Table α n) (i j : Fin n) (a : α) :
    (t.set i a).get j = if j = i then a else t.get j := by
  simp only [Table.get, Table.set, List.getElem_set, Fin.ext_iff, eq_comm]

@[simp] theorem Table.get_set_same {α : Type} {n : Nat} (t : Table α n) (i : Fin n) (a : α) :
    (t.set i a).get i = a := by simp [Table.get_set]

theorem Table.get_set_other {α : Type} {n : Nat} (t : Table α n) {i j : Fin n} (a : α) (h : j ≠ i) :
    (t.set i a).get j = t.get j := by simp [Table.get_set, h]

@[simp] theorem Table.get_ofFn {α : Type} {n : Nat} (f : Fin n → α) (i : Fin n) : (Table.ofFn f).get i = f i := by
  simp [Table.get, Table.ofFn]

@[simp] theorem Table.get_fill {α : Type} {n : Nat} (a : α) (i : Fin n) : (Table.fill n a).get i = a := by
  simp [Table.get, Table.fill]

theorem Table.mem_entries {α : Type} {n : Nat} {t : Table α n} {a : α} : a ∈ t.entries ↔ ∃ i, t.get i = a := by
  rw [List.mem_iff_getElem]
  exact ⟨fun ⟨i, hi, h⟩ => ⟨⟨i, t.length_eq ▸ hi⟩, h⟩, fun ⟨i, h⟩ => ⟨i, t.length_eq.symm ▸ i.isLt, h⟩⟩

theorem Table.all_entries {α : Type} {n : Nat} (t : Table α n) (p : α → Bool) :
    t.entries.all p = true ↔ ∀ i, p (t.get i) = true := by
  simp only [List.all_eq_true, Table.mem_entries, forall_exists_index, forall_apply_eq_imp_iff]

/-! ### Vectors and matrices -/

theorem Vec3.ext_get {u w : Vec3} (h : ∀ k, u.get k = w.get k) : u = w := by
  obtain ⟨a, b, c⟩ := u
  obtain ⟨a', b', c'⟩ := w
  have h0 := h 0; have h1 := h 1; have h2 := h 2
  simp only [Vec3.get] at h0 h1 h2
  simp [h0, h1, h2]

theorem Vec3.get_set (u : Vec3) (k m : Fin 3) (a : W64) : (u.set k a).get m = if m = k then a else u.get m := by
  fin_cases k <;> fin_cases m <;> rfl

@[simp] theorem Vec3.get_zero (k : Fin 3) : Vec3.zero.get k = Config.posZero := by
  fin_cases k <;> rfl

theorem Vec3.allFinite_iff (u : Vec3) : u.allFinite = true ↔ ∀ k, isFinite (u.get k) = true := by
  simp [Vec3.allFinite, Fin.forall_fin_succ, Vec3.get, and_assoc]

theorem Mat2.allFinite_iff (m : Mat2) : m.allFinite = true ↔ ∀ r c, isFinite (m.get r c) = true := by
  simp [Mat2.allFinite, Fin.forall_fin_succ, Mat2.get, and_assoc]

/-- The numeric check of a tick, element by element (41_signal_conditioner.md R131 step 3). -/
theorem Tick.allFinite_iff (t : Tick) :
    t.allFinite = true ↔ t.x0.allFinite = true ∧ t.y0.allFinite = true ∧ t.v.allFinite = true ∧
      (∀ j, (t.osc.get j).allFinite = true) ∧ ∀ j, isFinite (t.sva.get j) = true := by
  simp only [Tick.allFinite, Bool.and_eq_true, Table.all_entries, and_assoc]

/-! ### The window store -/

theorem Memory.read_cons (i : Nat) (x : W64) (rest : Memory) (a : Nat) (h : ∀ c ∈ rest, i < c.1) :
    (Memory.cons i x rest).read a = if a = i then x else rest.read a := by
  unfold Memory.cons
  by_cases hx : x = Config.posZero
  · have absent : ∀ m : Memory, (∀ c ∈ m, i < c.1) → m.read i = Config.posZero := by
      intro m
      induction m with
      | nil => intro _; rfl
      | cons c m ih =>
        intro hm
        have hc : i < c.1 := hm c List.mem_cons_self
        have : ¬ i = c.1 := by omega
        simp only [Memory.read, this, if_false]
        exact ih fun d hd => hm d (List.mem_cons_of_mem _ hd)
    by_cases ha : a = i
    · simp [hx, ha, absent rest h]
    · simp [hx, ha]
  · simp [hx, Memory.read]

theorem Memory.wf_cons_iff (j : Nat) (x : W64) (rest : Memory) :
    Memory.wf ((j, x) :: rest) = true ↔ x ≠ Config.posZero ∧ (∀ c ∈ rest, j < c.1) ∧ Memory.wf rest = true := by
  simp [Memory.wf, and_assoc]

/-- A write makes its index read as the written word and leaves every other index as it was. -/
theorem Memory.read_write (m : Memory) (h : m.wf = true) (i : Nat) (x : W64) (a : Nat) :
    (m.write i x).read a = if a = i then x else m.read a := by
  induction m with
  | nil => simp [Memory.write, Memory.read_cons]
  | cons c rest ih =>
    obtain ⟨j, y⟩ := c
    obtain ⟨-, hlt, hwf⟩ := (Memory.wf_cons_iff j y rest).1 h
    simp only [Memory.write]
    split
    · next hij =>
      refine Memory.read_cons i x _ a fun d hd => ?_
      rcases List.mem_cons.1 hd with rfl | hd
      · exact hij
      · have := hlt d hd
        omega
    · split
      · next hij =>
        subst hij
        rw [Memory.read_cons i x rest a hlt]
        by_cases ha : a = i <;> simp [ha, Memory.read]
      · next hij =>
        simp only [Memory.read, ih hwf]
        by_cases ha : a = j
        · have : ¬ a = i := by omega
          simp [ha, Ne.symm hij]
        · simp [ha]

theorem Memory.mem_cons_cell {i : Nat} {x : W64} {rest : Memory} {c : Nat × W64} (h : c ∈ Memory.cons i x rest) :
    c = (i, x) ∨ c ∈ rest := by
  unfold Memory.cons at h
  split at h
  · exact .inr h
  · exact List.mem_cons.1 h

/-- What a write lists was written by it or was listed before. -/
theorem Memory.mem_write {m : Memory} {i : Nat} {x : W64} {c : Nat × W64} (h : c ∈ m.write i x) :
    c = (i, x) ∨ c ∈ m := by
  induction m with
  | nil => exact Memory.mem_cons_cell h
  | cons d rest ih =>
    obtain ⟨j, y⟩ := d
    simp only [Memory.write] at h
    split at h
    · exact Memory.mem_cons_cell h
    · split at h
      · exact (Memory.mem_cons_cell h).imp_right (List.mem_cons_of_mem _)
      · rcases List.mem_cons.1 h with rfl | h
        · exact .inr List.mem_cons_self
        · exact (ih h).imp_right (List.mem_cons_of_mem _)

theorem Memory.wf_cons_cell {i : Nat} {x : W64} {rest : Memory} (h : ∀ c ∈ rest, i < c.1)
    (hwf : Memory.wf rest = true) : Memory.wf (Memory.cons i x rest) = true := by
  unfold Memory.cons
  split
  · exact hwf
  · next hx => exact (Memory.wf_cons_iff i x rest).2 ⟨hx, h, hwf⟩

/-- A write keeps the canonical form. -/
theorem Memory.wf_write {m : Memory} (h : m.wf = true) (i : Nat) (x : W64) : (m.write i x).wf = true := by
  induction m with
  | nil => exact Memory.wf_cons_cell (by simp) rfl
  | cons c rest ih =>
    obtain ⟨j, y⟩ := c
    obtain ⟨hy, hlt, hwf⟩ := (Memory.wf_cons_iff j y rest).1 h
    simp only [Memory.write]
    split
    · next hij =>
      refine Memory.wf_cons_cell (fun d hd => ?_) h
      rcases List.mem_cons.1 hd with rfl | hd
      · exact hij
      · have := hlt d hd
        omega
    · split
      · next hij =>
        subst hij
        exact Memory.wf_cons_cell hlt hwf
      · next h1 h2 =>
        refine (Memory.wf_cons_iff j y _).2 ⟨hy, fun c hc => ?_, ih hwf⟩
        rcases Memory.mem_write hc with rfl | hc
        · simp only
          omega
        · exact hlt c hc

/-- Clearing the indices below `n` keeps the canonical form. -/
theorem Memory.wf_clearBelow {m : Memory} (h : m.wf = true) (n : Nat) : (m.clearBelow n).wf = true := by
  induction m with
  | nil => rfl
  | cons c rest ih =>
    obtain ⟨j, y⟩ := c
    obtain ⟨hy, hlt, hwf⟩ := (Memory.wf_cons_iff j y rest).1 h
    unfold Memory.clearBelow at ih ⊢
    rw [List.filter_cons]
    split
    · exact (Memory.wf_cons_iff j y _).2 ⟨hy, fun c hc => hlt c (List.mem_of_mem_filter hc), ih hwf⟩
    · exact ih hwf

/-- Clearing the indices below `n` makes them read as +0.0 and leaves the others as they were. -/
theorem Memory.read_clearBelow (m : Memory) (n a : Nat) :
    (m.clearBelow n).read a = if a < n then Config.posZero else m.read a := by
  induction m with
  | nil => simp [Memory.clearBelow, Memory.read]
  | cons c rest ih =>
    obtain ⟨j, y⟩ := c
    unfold Memory.clearBelow at ih ⊢
    by_cases hj : n ≤ j
    · rw [List.filter_cons_of_pos (by simpa using hj)]
      simp only [Memory.read, ih]
      by_cases ha : a = j
      · have : ¬ a < n := by omega
        simp [ha, hj]
      · simp [ha]
    · rw [List.filter_cons_of_neg (by simpa using hj), ih]
      by_cases ha : a < n
      · simp [ha]
      · have : ¬ a = j := by omega
        simp [ha, this, Memory.read]

/-! ### Guards -/

/-- A command permitted only in UNCONFIGURED raises BadState elsewhere (60_exceptions.md R225). -/
theorem beforeInstance_eq (s : State) (k : Result) :
    (s.mode = .unconfigured ∧ beforeInstance s k = k) ∨
      (s.mode ≠ .unconfigured ∧ beforeInstance s k = .next (s.raise .badState)) := by
  unfold beforeInstance
  split <;> simp_all

/-- A command that needs an instance raises BadState in UNCONFIGURED (R225). -/
theorem inInstance_eq (s : State) (k : Result) :
    (s.mode = .unconfigured ∧ inInstance s k = .next (s.raise .badState)) ∨
      (s.mode ≠ .unconfigured ∧ inInstance s k = k) := by
  unfold inInstance
  split <;> simp_all

/-- An indexed read raises BadState, raises BadIndex, or answers its value (R228). -/
theorem publish_eq (s : State) (inRange : Bool) (value : W64) :
    (s.mode = .unconfigured ∧ publish s inRange value = .next (s.raise .badState)) ∨
      (s.mode ≠ .unconfigured ∧ inRange = false ∧ publish s inRange value = .next (s.raise .badIndex)) ∨
      (s.mode ≠ .unconfigured ∧ inRange = true ∧
        publish s inRange value = .next (s.respond statusOk value)) := by
  unfold publish
  rcases inInstance_eq s (if inRange then .next (s.respond statusOk value) else .next (s.raise .badIndex)) with
    ⟨h, e⟩ | ⟨h, e⟩ <;> cases inRange <;> simp_all

/-- UPDATE raises BadState, InvalidInput or NumericFault, or commits its tick
(41_signal_conditioner.md R131). -/
theorem execUpdate_eq (s : State) :
    (s.mode = .unconfigured ∧ execUpdate s = .next (s.raise .badState)) ∨
      (s.mode ≠ .unconfigured ∧ s.sampleReady = false ∧ execUpdate s = .next (s.unstage.raise .invalidInput)) ∨
      (s.mode ≠ .unconfigured ∧ s.sampleReady = true ∧ s.tick.allFinite = false ∧
        execUpdate s = .next (s.unstage.raise .numericFault)) ∨
      (s.mode ≠ .unconfigured ∧ s.sampleReady = true ∧ s.tick.allFinite = true ∧
        execUpdate s = .next (s.unstage.commit s.tick).respondClass) := by
  unfold execUpdate
  rcases inInstance_eq s (if s.sampleReady then
      (if s.tick.allFinite then .next (s.unstage.commit s.tick).respondClass
       else .next (s.unstage.raise .numericFault))
     else .next (s.unstage.raise .invalidInput)) with ⟨h, e⟩ | ⟨h, e⟩ <;>
  · rw [e]
    cases hr : s.sampleReady <;> cases ht : s.tick.allFinite <;> simp_all

end Sys2Proof.Machine
end

