-- ==== Sys2Proof/Laws/Answers.lean ====
section
/-! SUPPORT. The model's answers in the words of Safety.lean: what an OK response and an error write. -/

namespace Sys2Proof.Machine

open Sys2Proof.Safety

theorem responseWord_ok (c : BitVec 3) : responseWord statusOk c = c.setWidth 32 := by
  revert c
  decide

theorem responseWord_error (e : ErrorCode) (c : BitVec 3) :
    responseWord e.code c = BitVec.ofNat 32 (2 ^ 24 * e.code.toNat) ||| c.setWidth 32 := by
  revert c
  cases e <;> decide

theorem setErrFlag_eq (flags : BitVec 8) (e : ErrorCode) :
    setErrFlag flags e = flags ||| BitVec.ofNat 8 (2 ^ e.code.toNat) := by
  cases e <;> rfl

/-- An OK response appends one packet and writes nothing else (30_encoding.md R81). -/
theorem State.respond_ok_eq (s : State) (data : W64) : s.respond statusOk data = answered s data := by
  simp [State.respond, answered, responseWord_ok]

/-- Taking an error writes its flag bit and one response, and nothing else (60_exceptions.md R229). -/
theorem State.raise_eq (s : State) (e : ErrorCode) : s.raise e = refusedWith s e.code.toNat := by
  simp [State.raise, State.respond, refusedWith, responseWord_error, setErrFlag_eq]

/-- The answer of UPDATE and RDCLASS (43_classifier.md R169). -/
theorem State.respondClass_eq (s : State) : s.respondClass = answered s (s.lclass.setWidth 64) :=
  s.respond_ok_eq _

end Sys2Proof.Machine
end

