-- ==== Sys2Proof/Laws/Binary64.lean ====
section
/-! SUPPORT. Facts of the binary64 operations that the rules of the tick rest on: the fields of a packed word, exact
zeros, signs, and that a non-finite operand never gives a finite result (60_exceptions.md R227). -/

namespace Sys2Proof.Machine

open Sys2Proof

/-! ### Fields -/

theorem pack_toNat {neg : Bool} {bits : Nat} (h : bits < 2 ^ 63) :
    (pack neg bits).toNat = (if neg then 2 ^ 63 else 0) + bits := by
  unfold pack
  rw [BitVec.toNat_ofNat]
  cases neg <;> simp only [if_true, if_false, Bool.false_eq_true]
  · omega
  · omega

theorem signBit_pack {neg : Bool} {bits : Nat} (h : bits < 2 ^ 63) : signBit (pack neg bits) = neg := by
  unfold signBit
  rw [pack_toNat h]
  cases neg
  · simpa using h
  · simp

theorem isFinite_iff (w : W64) : isFinite w = true ↔ w.toNat % 2 ^ 63 < 0x7FF * 2 ^ 52 := by
  unfold isFinite expField
  have := w.isLt
  simp only [bne_iff_ne, ne_eq]
  omega

theorem isZero_iff (w : W64) : isZero w = true ↔ w.toNat % 2 ^ 63 = 0 := by
  unfold isZero expField fracField
  have := w.isLt
  simp only [Bool.and_eq_true, beq_iff_eq]
  omega

theorem isNaN_iff (w : W64) : isNaN w = true ↔ 0x7FF * 2 ^ 52 < w.toNat % 2 ^ 63 := by
  unfold isNaN expField fracField
  have := w.isLt
  simp only [Bool.and_eq_true, beq_iff_eq, bne_iff_ne, ne_eq]
  omega

theorem isInf_iff (w : W64) : isInf w = true ↔ w.toNat % 2 ^ 63 = 0x7FF * 2 ^ 52 := by
  unfold isInf expField fracField
  have := w.isLt
  simp only [Bool.and_eq_true, beq_iff_eq]
  omega

/-- +0.0 or a positive finite pattern, as a bound on the word. -/
theorem nonNegative_iff (w : W64) :
    w.toNat < 0x7FF0000000000000 ↔ isFinite w = true ∧ signBit w = false := by
  rw [isFinite_iff]
  unfold signBit
  have := w.isLt
  simp only [decide_eq_false_iff_not]
  omega

/-- A word is finite, an infinity or a NaN. -/
theorem finite_or_inf_or_nan (w : W64) :
    (isFinite w = true ∧ isInf w = false ∧ isNaN w = false) ∨
      (isFinite w = false ∧ isInf w = true ∧ isNaN w = false) ∨
      (isFinite w = false ∧ isInf w = false ∧ isNaN w = true) := by
  simp only [← Bool.not_eq_true, isFinite_iff, isInf_iff, isNaN_iff]
  omega

theorem isNaN_of_isFinite {w : W64} (h : isFinite w = true) : isNaN w = false := by
  rcases finite_or_inf_or_nan w with ⟨-, -, h'⟩ | ⟨h', -⟩ | ⟨h', -⟩ <;> simp_all

theorem isInf_of_isFinite {w : W64} (h : isFinite w = true) : isInf w = false := by
  rcases finite_or_inf_or_nan w with ⟨-, h', -⟩ | ⟨h', -⟩ | ⟨h', -⟩ <;> simp_all

theorem isFinite_of_isZero {w : W64} (h : isZero w = true) : isFinite w = true := by
  rw [isZero_iff] at h
  rw [isFinite_iff, h]
  norm_num

theorem magnitude_of_isZero {w : W64} (h : isZero w = true) : magnitude w = 0 := by
  simp only [isZero, Bool.and_eq_true, beq_iff_eq] at h
  simp [magnitude, h.1, h.2]

theorem magnitude_eq_zero_iff (w : W64) : magnitude w = 0 ↔ isZero w = true := by
  refine ⟨fun h => ?_, magnitude_of_isZero⟩
  unfold magnitude at h
  unfold isZero
  split at h
  · simp_all
  · have := Nat.pos_of_ne_zero (Nat.mul_ne_zero (show 2 ^ 52 + fracField w ≠ 0 by omega)
      (pow_ne_zero (expField w - 1) (two_ne_zero (α := ℕ))))
    omega

theorem units_of_isZero {w : W64} (h : isZero w = true) : units w = 0 := by
  simp [units, magnitude_of_isZero h]

/-! ### Rounding -/

theorem roundMag_le (num den : Nat) : roundMag num den ≤ infinityBits := Nat.min_le_right _ _

theorem roundMag_lt (num den : Nat) : roundMag num den < 2 ^ 63 :=
  lt_of_le_of_lt (roundMag_le num den) (by norm_num [infinityBits])

theorem log2Below_eq (k n : Nat) (h : n < 2 ^ (2 ^ k)) : log2Below k n = Nat.log2 n := by
  induction k generalizing n with
  | zero =>
    have : n = 0 ∨ n = 1 := by norm_num at h; omega
    rcases this with rfl | rfl <;> decide
  | succ k ih =>
    unfold log2Below
    have hk : (2 : Nat) ^ (2 ^ (k + 1)) = 2 ^ (2 ^ k) * 2 ^ (2 ^ k) := by rw [← pow_add, ← two_mul, ← pow_succ']
    have hp : 0 < (2 : Nat) ^ (2 ^ k) := Nat.pos_of_ne_zero (by positivity)
    split
    · next hle =>
      have hdiv : n / 2 ^ (2 ^ k) < 2 ^ (2 ^ k) := by
        rw [Nat.div_lt_iff_lt_mul hp, ← hk]
        exact h
      rw [ih _ hdiv]
      have hn : n / 2 ^ (2 ^ k) ≠ 0 := (Nat.div_pos hle hp).ne'
      have hn0 : n ≠ 0 := by omega
      rw [Nat.log2_eq_log_two, Nat.log2_eq_log_two, Nat.log_div_base_pow, Nat.add_sub_cancel']
      exact Nat.le_log_of_pow_le (by norm_num) hle
    · next hlt => exact ih n (by omega)

/-- `floorLog2` is the integer logarithm for every ratio the operations form. -/
theorem floorLog2_eq {n : Nat} (h : n < 2 ^ (2 ^ 13)) : floorLog2 n = Nat.log2 n := log2Below_eq 13 n h

@[simp] theorem roundEven_zero (d : Nat) : roundEven 0 d = 0 := by
  cases d <;> simp [roundEven]

theorem log2Below_zero (k : Nat) : log2Below k 0 = 0 := by
  induction k with
  | zero => rfl
  | succ k ih =>
    have : ¬ 2 ^ (2 ^ k) ≤ 0 := by simp
    rw [log2Below, if_neg this, ih]

@[simp] theorem roundMag_zero (den : Nat) : roundMag 0 den = 0 := by
  simp [roundMag, scaleOf, floorLog2, log2Below_zero]

/-! ### The negated operand -/

theorem mod_lt_signBit (a : W64) : a.toNat % 2 ^ 63 < 2 ^ 63 := Nat.mod_lt _ (by norm_num)

theorem fneg_mod (a : W64) : (fneg a).toNat % 2 ^ 63 = a.toNat % 2 ^ 63 := by
  unfold fneg
  rw [pack_toNat (mod_lt_signBit a)]
  split <;> simp

@[simp] theorem signBit_fneg (a : W64) : signBit (fneg a) = !signBit a := signBit_pack (mod_lt_signBit a)

@[simp] theorem isFinite_fneg (a : W64) : isFinite (fneg a) = isFinite a := by
  rw [Bool.eq_iff_iff, isFinite_iff, isFinite_iff, fneg_mod]

@[simp] theorem isNaN_fneg (a : W64) : isNaN (fneg a) = isNaN a := by
  rw [Bool.eq_iff_iff, isNaN_iff, isNaN_iff, fneg_mod]

@[simp] theorem isInf_fneg (a : W64) : isInf (fneg a) = isInf a := by
  rw [Bool.eq_iff_iff, isInf_iff, isInf_iff, fneg_mod]

@[simp] theorem isZero_fneg (a : W64) : isZero (fneg a) = isZero a := by
  rw [Bool.eq_iff_iff, isZero_iff, isZero_iff, fneg_mod]

theorem magnitude_congr {a b : W64} (h : a.toNat % 2 ^ 63 = b.toNat % 2 ^ 63) : magnitude a = magnitude b := by
  have he : expField a = expField b := by unfold expField; omega
  have hf : fracField a = fracField b := by unfold fracField; omega
  simp [magnitude, he, hf]

@[simp] theorem units_fneg (a : W64) : units (fneg a) = -units a := by
  unfold units
  rw [signBit_fneg, magnitude_congr (fneg_mod a)]
  cases signBit a <;> simp

/-! ### Non-finite operands -/

/-- A NaN is not finite, whatever its free bits. -/
@[simp] theorem isFinite_quietNaN (op : Nat) (a b : W64) : isFinite (Config.quietNaN op a b) = false := by
  have e : (Config.quietNaN op a b).toNat =
      (((Config.nanBits op a b).extractLsb' 51 1).toNat <<< 12 ||| 0xFFF) <<< 51 |||
        ((Config.nanBits op a b).extractLsb' 0 51).toNat := by
    simp only [Config.quietNaN, BitVec.toNat_append]
    rfl
  have h1 := ((Config.nanBits op a b).extractLsb' 51 1).isLt
  have h2 := ((Config.nanBits op a b).extractLsb' 0 51).isLt
  rw [← Nat.shiftLeft_add_eq_or_of_lt h2, ← Nat.shiftLeft_add_eq_or_of_lt (i := 12) (by norm_num), Nat.shiftLeft_eq,
    Nat.shiftLeft_eq] at e
  rw [← Bool.not_eq_true, isFinite_iff, e]
  omega

theorem isFinite_pack_inf (neg : Bool) : isFinite (pack neg infinityBits) = false := by
  cases neg <;> decide

/-- A finite sum has finite operands. -/
theorem isFinite_fadd {a b : W64} (h : isFinite (fadd a b) = true) : isFinite a = true ∧ isFinite b = true := by
  rcases finite_or_inf_or_nan a with ⟨ha, hia, hna⟩ | ⟨ha, hia, hna⟩ | ⟨ha, hia, hna⟩ <;>
  rcases finite_or_inf_or_nan b with ⟨hb, hib, hnb⟩ | ⟨hb, hib, hnb⟩ | ⟨hb, hib, hnb⟩ <;>
  simp only [fadd, hia, hna, hib, hnb, Bool.or_true, Bool.or_false, Bool.false_eq_true, if_true,
    if_false, isFinite_quietNaN, Bool.true_and, Bool.false_and, ha, hb] at h ⊢ <;>
  first
  | exact absurd h (by decide)
  | exact ⟨trivial, trivial⟩
  | (split at h <;> simp_all)

/-- A finite difference has finite operands. -/
theorem isFinite_fsub {a b : W64} (h : isFinite (fsub a b) = true) : isFinite a = true ∧ isFinite b = true := by
  have := isFinite_fadd h
  simpa using this

/-- A finite product has finite factors. -/
theorem isFinite_fmul {a b : W64} (h : isFinite (fmul a b) = true) : isFinite a = true ∧ isFinite b = true := by
  rcases finite_or_inf_or_nan a with ⟨ha, hia, hna⟩ | ⟨ha, hia, hna⟩ | ⟨ha, hia, hna⟩ <;>
  rcases finite_or_inf_or_nan b with ⟨hb, hib, hnb⟩ | ⟨hb, hib, hnb⟩ | ⟨hb, hib, hnb⟩ <;>
  simp only [fmul, hia, hna, hib, hnb, Bool.or_true, Bool.or_false, Bool.false_eq_true, if_true,
    if_false, isFinite_quietNaN, ha, hb] at h ⊢ <;>
  first
  | exact absurd h (by decide)
  | exact ⟨trivial, trivial⟩
  | (split at h <;> simp [isFinite_pack_inf] at h)

/-- A finite quotient has a finite dividend. -/
theorem isFinite_fdiv {a b : W64} (h : isFinite (fdiv a b) = true) : isFinite a = true := by
  rcases finite_or_inf_or_nan a with ⟨ha, -⟩ | ⟨-, hia, hna⟩ | ⟨-, -, hna⟩
  · exact ha
  · unfold fdiv at h
    rw [hia, hna] at h
    by_cases hb : isNaN b = true <;> simp only [hb, Bool.or_true, Bool.false_or, if_true, if_false,
      isFinite_quietNaN, Bool.false_eq_true] at h
    split at h <;> simp [isFinite_pack_inf] at h
  · simp [fdiv, hna] at h

/-- A finite root has a finite operand. -/
theorem isFinite_fsqrt {a : W64} (h : isFinite (fsqrt a) = true) : isFinite a = true := by
  rcases finite_or_inf_or_nan a with ⟨ha, -⟩ | ⟨ha, hia, hna⟩ | ⟨-, -, hna⟩
  · exact ha
  · have hz : isZero a = false := by
      rw [← Bool.not_eq_true, isZero_iff]
      rw [isInf_iff] at hia
      omega
    simp only [fsqrt, hna, hz, hia, Bool.false_eq_true, if_false, if_true] at h
    split at h
    · simp at h
    · exact h
  · simp [fsqrt, hna] at h

/-! ### Zeros -/

theorem isZero_pack_zero (neg : Bool) : isZero (pack neg 0) = true := by cases neg <;> decide

/-- Zeros add to a zero. -/
theorem isZero_fadd {a b : W64} (ha : isZero a = true) (hb : isZero b = true) : isZero (fadd a b) = true := by
  have fa := isFinite_of_isZero ha
  have fb := isFinite_of_isZero hb
  simp only [fadd, isNaN_of_isFinite fa, isNaN_of_isFinite fb, isInf_of_isFinite fa, isInf_of_isFinite fb,
    Bool.or_self, Bool.false_eq_true, if_false, faddFinite, units_of_isZero ha, units_of_isZero hb, add_zero, if_true]
  split <;> decide

theorem isZero_fsub {a b : W64} (ha : isZero a = true) (hb : isZero b = true) : isZero (fsub a b) = true :=
  isZero_fadd ha (by simpa using hb)

/-- +0.0 plus a zero of either sign is +0.0. -/
theorem fadd_posZero {b : W64} (hb : isZero b = true) : fadd Config.posZero b = Config.posZero := by
  have ha : isZero Config.posZero = true := by decide
  have fa := isFinite_of_isZero ha
  have fb := isFinite_of_isZero hb
  have hs : signBit Config.posZero = false := by decide
  simp only [fadd, isNaN_of_isFinite fa, isNaN_of_isFinite fb, isInf_of_isFinite fa, isInf_of_isFinite fb,
    Bool.or_self, Bool.false_eq_true, if_false, faddFinite, units_of_isZero ha, units_of_isZero hb, add_zero, if_true,
    hs, Bool.false_and]

/-- A finite factor times a zero is a zero. -/
theorem isZero_fmul_right {a b : W64} (ha : isFinite a = true) (hb : isZero b = true) : isZero (fmul a b) = true := by
  have fb := isFinite_of_isZero hb
  simp only [fmul, isNaN_of_isFinite ha, isNaN_of_isFinite fb, isInf_of_isFinite ha, isInf_of_isFinite fb,
    Bool.or_self, Bool.false_eq_true, if_false, magnitude_of_isZero hb, mul_zero, roundMag_zero, isZero_pack_zero]

theorem isZero_fmul_left {a b : W64} (ha : isZero a = true) (hb : isFinite b = true) : isZero (fmul a b) = true := by
  have fa := isFinite_of_isZero ha
  simp only [fmul, isNaN_of_isFinite hb, isNaN_of_isFinite fa, isInf_of_isFinite hb, isInf_of_isFinite fa,
    Bool.or_self, Bool.false_eq_true, if_false, magnitude_of_isZero ha, zero_mul, roundMag_zero, isZero_pack_zero]

/-- A zero divided by a finite non-zero divisor is a zero. -/
theorem isZero_fdiv {a b : W64} (ha : isZero a = true) (hb : isFinite b = true) (hb' : isZero b = false) :
    isZero (fdiv a b) = true := by
  have fa := isFinite_of_isZero ha
  simp only [fdiv, isNaN_of_isFinite hb, isNaN_of_isFinite fa, isInf_of_isFinite hb, isInf_of_isFinite fa, hb',
    Bool.or_self, Bool.false_eq_true, if_false, magnitude_of_isZero ha, zero_mul, roundMag_zero, isZero_pack_zero]

/-- A finite operand minus itself is +0.0 (41_signal_conditioner.md R133). -/
theorem fsub_self {a : W64} (ha : isFinite a = true) : fsub a a = Config.posZero := by
  have hn : isFinite (fneg a) = true := by simpa using ha
  simp only [fsub, fadd, isNaN_of_isFinite ha, isNaN_of_isFinite hn, isInf_of_isFinite ha, isInf_of_isFinite hn,
    Bool.or_self, Bool.false_eq_true, if_false, faddFinite, units_fneg, signBit_fneg]
  cases signBit a <;> simp

/-! ### Signs -/

/-- The sign bit of a finite square is 0. -/
theorem signBit_fmul_self {a : W64} (h : isFinite (fmul a a) = true) : signBit (fmul a a) = false := by
  unfold fmul at h ⊢
  split
  · next hn =>
    rw [if_pos hn, isFinite_quietNaN] at h
    cases h
  · next hn =>
    split
    · next hi =>
      split
      · next hz =>
        rw [if_neg hn, if_pos hi, if_pos hz, isFinite_quietNaN] at h
        cases h
      · rw [bne_self_eq_false]
        exact signBit_pack (by norm_num [infinityBits])
    · rw [bne_self_eq_false]
      exact signBit_pack (roundMag_lt _ _)

theorem units_nonneg {a : W64} (h : signBit a = false) : 0 ≤ units a := by
  simp [units, h]

/-- The sign bit of a finite sum of two words with sign bit 0 is 0. -/
theorem signBit_fadd {a b : W64} (h : isFinite (fadd a b) = true) (ha : signBit a = false) (hb : signBit b = false) :
    signBit (fadd a b) = false := by
  have hz : signBit Config.posZero = false := by decide
  have := units_nonneg ha
  have := units_nonneg hb
  have hlt : ¬ (units a + units b < 0) := by omega
  unfold fadd faddFinite at h ⊢
  split
  · next hn =>
    rw [if_pos hn, isFinite_quietNaN] at h
    cases h
  · next hn =>
    split
    · next hi =>
      split
      · next ho =>
        rw [if_neg hn, if_pos hi, if_pos ho, isFinite_quietNaN] at h
        cases h
      · exact ha
    · split
      · exact hb
      · split
        · simpa [ha] using hz
        · rw [signBit_pack (roundMag_lt _ _)]
          simpa using hlt

/-- The sign bit of the finite root of a word with sign bit 0 is 0. -/
theorem signBit_fsqrt {a : W64} (h : isFinite (fsqrt a) = true) (ha : signBit a = false) :
    signBit (fsqrt a) = false := by
  unfold fsqrt at h ⊢
  split
  · next hn =>
    rw [if_pos hn, isFinite_quietNaN] at h
    cases h
  · split
    · exact ha
    · split
      · next hs =>
        rw [ha] at hs
        cases hs
      · split
        · exact ha
        · exact signBit_pack (roundMag_lt _ _)

/-- The root of +0.0 is +0.0. -/
theorem fsqrt_posZero : fsqrt Config.posZero = Config.posZero := by
  have hn : isNaN Config.posZero = false := by decide
  have hz : isZero Config.posZero = true := by decide
  simp [fsqrt, hn, hz]

/-! ### Comparison -/

/-- `fmax` answers one of its operands (R10). -/
theorem fmax_eq_or (a b : W64) : fmax a b = a ∨ fmax a b = b := by
  unfold fmax
  split
  · exact .inr rfl
  · exact .inl rfl

theorem flt_irrefl (a : W64) : flt a a = false := by simp [flt]

@[simp] theorem fmax_self (a : W64) : fmax a a = a := by simp [fmax]

/-- The fold of `fmax` answers its start or one of the elements. -/
theorem foldl_fmax_mem {α : Type} (f : α → W64) (l : List α) (m : W64) :
    l.foldl (fun m i => fmax m (f i)) m = m ∨ ∃ i ∈ l, l.foldl (fun m i => fmax m (f i)) m = f i := by
  induction l generalizing m with
  | nil => exact .inl rfl
  | cons i l ih =>
    rw [List.foldl_cons]
    rcases ih (fmax m (f i)) with h | ⟨j, hj, h⟩
    · rcases fmax_eq_or m (f i) with h' | h'
      · exact .inl (h.trans h')
      · exact .inr ⟨i, List.mem_cons_self, h.trans h'⟩
    · exact .inr ⟨j, List.mem_cons_of_mem _ hj, h⟩

end Sys2Proof.Machine
end

