-- ==== Sys2Proof/Laws/Encoding.lean ====
section
/-! SUPPORT. The fields of a command word as numbers (30_encoding.md R80, R87). -/

namespace Sys2Proof

theorem Packet.op_eq (p : Packet) : p.op = p.word.toNat / 2 ^ 24 := by
  have := p.word.isLt
  simp only [Packet.op, BitVec.extractLsb'_toNat, Nat.shiftRight_eq_div_pow]
  omega

theorem Packet.rsv_eq (p : Packet) : p.rsv = p.word.toNat / 2 ^ 16 % 2 ^ 8 := by
  simp only [Packet.rsv, BitVec.extractLsb'_toNat, Nat.shiftRight_eq_div_pow]

theorem Packet.idx_eq (p : Packet) : p.idx = p.word.toNat % 2 ^ 16 := by
  simp [Packet.idx, BitVec.extractLsb'_toNat]

theorem commandWord_toNat (op : BitVec 8) {idx : Nat} (h : idx < 2 ^ 16) :
    (commandWord op idx).toNat = op.toNat * 2 ^ 24 + idx := by
  have e : (commandWord op idx).toNat = (op.toNat <<< 8 ||| 0) <<< 16 ||| idx % 2 ^ 16 := by
    simp only [commandWord, BitVec.toNat_append, BitVec.toNat_ofNat, Nat.zero_mod]
  rw [e, Nat.mod_eq_of_lt h, Nat.or_zero, ← Nat.shiftLeft_add_eq_or_of_lt h, Nat.shiftLeft_eq, Nat.shiftLeft_eq]
  omega

/-- The three fields of an encoded command word. -/
theorem commandWord_fields (op : BitVec 8) {idx : Nat} (h : idx < 2 ^ 16) (data : W64) :
    (Packet.mk (commandWord op idx) data).op = op.toNat ∧ (Packet.mk (commandWord op idx) data).rsv = 0 ∧
      (Packet.mk (commandWord op idx) data).idx = idx := by
  have := op.isLt
  rw [Packet.op_eq, Packet.rsv_eq, Packet.idx_eq]
  simp only [commandWord_toNat op h]
  omega

end Sys2Proof
end

