-- ==== Sys2Proof/Laws/HostContract.lean ====
section
/-! SUPPORT. What the host's Construct can do (45_host_coefficient_contract.md R202, R207, R208). -/

namespace Sys2Proof.Machine

/-- When the host has a capacity: the rate is positive and finite and 30·sampleRate is that many ticks exactly. -/
theorem hostWcap_eq_some {wcapMax n : Nat} {r : SampleRate} (h : hostWcap wcapMax r = some n) :
    0 < r.num ∧ r.den ≠ 0 ∧ n * r.den = 30 * r.num.toNat ∧ 1 ≤ n ∧ n ≤ wcapMax := by
  unfold hostWcap at h
  split at h
  · next hc =>
    simp only [SampleRate.isPositive, Bool.and_eq_true, decide_eq_true_eq, bne_iff_ne, beq_iff_eq] at hc
    obtain ⟨⟨⟨hn, hd⟩, hm⟩, hle⟩ := hc
    cases h
    have e := Nat.div_mul_cancel (Nat.dvd_of_mod_eq_zero hm)
    refine ⟨hn, hd, e, Nat.one_le_iff_ne_zero.2 fun hz => ?_, hle⟩
    rw [hz] at e
    omega
  · cases h

/-- The host issues CONSTRUCT of its whole table for an accepted rate with finite coefficients, and otherwise fails with
InvalidConfiguration and issues nothing. -/
theorem hostConstruct_eq (wcapMax : Nat) (r : SampleRate) (hpb hpa : Vec3) (oa ob : Table Mat2 32) :
    (∃ c, hostCoefficients wcapMax r hpb hpa oa ob = some c ∧ c.allFinite = true ∧
      hostConstruct wcapMax r hpb hpa oa ob = .ok (construct c.table)) ∨
    ((∀ c, hostCoefficients wcapMax r hpb hpa oa ob = some c → c.allFinite = false) ∧
      hostConstruct wcapMax r hpb hpa oa ob = .error .invalidConfiguration) := by
  unfold hostConstruct
  cases hc : hostCoefficients wcapMax r hpb hpa oa ob with
  | none => exact .inr ⟨fun c h => (nomatch h), rfl⟩
  | some c =>
    cases hf : c.allFinite with
    | true => exact .inl ⟨c, rfl, hf, by simp [hf]⟩
    | false => exact .inr ⟨fun _ h => Option.some.inj h ▸ hf, by simp [hf]⟩

end Sys2Proof.Machine
end

