-- ==== Sys2Proof/Laws/PerInstr.lean ====
section
/-! SUPPORT. The families of statements made per command. -/

namespace Sys2Proof.Laws

open Sys2Proof

/-- The mask of a command's row in the opcode table (30_encoding.md R82). -/
def rowMask : Instr → W32
  | .nop | .reset | .init | .update | .rdmax | .rdclass | .rdstat => 0xFFFFFFFF#32
  | .wrcfg _ _ | .lds _ _ | .rdsva _ | .rdacc _ | .rdvel _ | .rdwin _ => 0xFFFF0000#32

/-- The match value of a command's row. -/
def rowMatch : Instr → W32
  | .nop => 0x00000000#32
  | .reset => 0x01000000#32
  | .wrcfg _ _ => 0x02000000#32
  | .init => 0x03000000#32
  | .lds _ _ => 0x04000000#32
  | .update => 0x05000000#32
  | .rdsva _ => 0x10000000#32
  | .rdacc _ => 0x11000000#32
  | .rdvel _ => 0x12000000#32
  | .rdmax => 0x13000000#32
  | .rdwin _ => 0x14000000#32
  | .rdclass => 0x15000000#32
  | .rdstat => 0x16000000#32

/-- The mask of an indexed row drops the index. -/
theorem commandWord_mask (op : BitVec 8) (idx : Nat) :
    commandWord op idx &&& 0xFFFF0000#32 = commandWord op 0 := by
  apply BitVec.eq_of_getLsbD_eq
  intro i hi
  simp only [commandWord, BitVec.getLsbD_and, BitVec.getLsbD_append]
  interval_cases i <;> simp

/-- The encoding of a command lies in the command's row of the opcode table: `w & mask = match` (R82). -/
def EncodesRow.Statement (i : Instr) : Prop := (encode i).word &&& rowMask i = rowMatch i

theorem EncodesRow.nop : EncodesRow.Statement .nop := rfl

theorem EncodesRow.reset : EncodesRow.Statement .reset := rfl

theorem EncodesRow.wrcfg (idx : Nat) (data : W64) : EncodesRow.Statement (.wrcfg idx data) := commandWord_mask _ _

theorem EncodesRow.init : EncodesRow.Statement .init := rfl

theorem EncodesRow.lds (idx : Nat) (data : W64) : EncodesRow.Statement (.lds idx data) := commandWord_mask _ _

theorem EncodesRow.update : EncodesRow.Statement .update := rfl

theorem EncodesRow.rdsva (idx : Nat) : EncodesRow.Statement (.rdsva idx) := commandWord_mask _ _

theorem EncodesRow.rdacc (idx : Nat) : EncodesRow.Statement (.rdacc idx) := commandWord_mask _ _

theorem EncodesRow.rdvel (idx : Nat) : EncodesRow.Statement (.rdvel idx) := commandWord_mask _ _

theorem EncodesRow.rdmax : EncodesRow.Statement .rdmax := rfl

theorem EncodesRow.rdwin (idx : Nat) : EncodesRow.Statement (.rdwin idx) := commandWord_mask _ _

theorem EncodesRow.rdclass : EncodesRow.Statement .rdclass := rfl

theorem EncodesRow.rdstat : EncodesRow.Statement .rdstat := rfl

end Sys2Proof.Laws
end

