-- ==== Sys2Proof/Tests/Slice0.lean ====
section
/-! SUPPORT. The model's own tests, their expected values taken from spec/ (95_test_vectors.md unless said otherwise),
and a witness for the hypotheses of every statement that has some. -/

namespace Sys2Proof.Tests

open Sys2Proof Sys2Proof.Machine Sys2Proof.Safety

-- One test after another: elaborated together, their kernel evaluations take a thread each.
set_option Elab.async false

/-! ### Helpers -/

/-- The state an answer leaves. -/
def stateOf (r : Result) : Option State :=
  match r with
  | .next t => some t
  | .fault _ => none
  | .refused _ => none

/-- Status, class and data of the last response an answer leaves. -/
def answerOf (r : Result) : Option (Nat × Nat × W64) :=
  match (stateOf r).bind fun t => t.delivered.getLast? with
  | some a => some (statusOf a, a.word.toNat % 8, a.data)
  | none => none

/-- A table whose first entries are given, the rest +0.0. -/
def tableOf (l : List W64) : List W64 := l ++ List.replicate (264 - l.length) 0#64

/-- The configuration of section 3.1 (program P1). -/
def p1Entries : List W64 :=
  [0x3FE0000000000000#64, 0xBFF0000000000000#64, 0x3FE0000000000000#64, 0x3FF0000000000000#64,
   0xBFE0000000000000#64, 0x3FD0000000000000#64, 0x3FE0000000000000#64, 4#64] ++
  [0x3FE0000000000000#64, 0x3FD0000000000000#64, 0xBFE0000000000000#64, 0x3FE0000000000000#64,
   0xBFC0000000000000#64, 0xBFC0000000000000#64, 0xBFE0000000000000#64, 0xBFD0000000000000#64] ++
  [0x3FD0000000000000#64, 0x3FE0000000000000#64, 0xBFD0000000000000#64, 0x3FD0000000000000#64,
   0x0000000000000000#64, 0x0000000000000000#64, 0xBFF0000000000000#64, 0x0000000000000000#64]

/-- The table of program P1. -/
def p1Table : Table W64 264 := ⟨tableOf p1Entries, by decide +kernel⟩

/-- UNCONFIGURED with the table of P1 written. -/
def loaded : State := { State.reset with cfg := p1Table, cw := Table.fill 264 true }

/-- A new instance of P1 with the sample (10, 0, 980) staged. -/
def beforeTick0 : State :=
  { loaded with
    mode := .uninitialized, svalid := 7#3,
    sx := ⟨0x4024000000000000#64, 0#64, 0x408EA00000000000#64⟩ }

/-- P1 after tick 1 with the sample (6, 0, 979) staged (41_signal_conditioner.md R131's example and sections 2.3
to 2.5). -/
def beforeTick2 : State :=
  { loaded with
    mode := .running, svalid := 7#3,
    sx := ⟨0x4018000000000000#64, 0#64, 0x408E980000000000#64⟩,
    ref := ⟨0x4024000000000000#64, 0#64, 0x408EA00000000000#64⟩,
    x0 := ⟨0x4000000000000000#64, 0#64, 0x3FF0000000000000#64⟩,
    y0 := ⟨0x3FF0000000000000#64, 0#64, 0x3FE0000000000000#64⟩,
    v := ⟨0x3FD0000000000000#64, 0#64, 0x3FC0000000000000#64⟩,
    osc := (Table.fill 32 Mat2.zero).set 0 ⟨0xBFC0000000000000#64, 0#64, 0xBFD0000000000000#64, 0#64⟩,
    sva := (Table.fill 32 0x3FD0000000000000#64).set 0 0#64,
    win := [(1, 0x3FD0000000000000#64)], wptr := 2#16, max30 := 0x3FD0000000000000#64 }

/-- An instance whose next tick overflows: REF = 1e308, sample −1e308 (section 3.3). -/
def beforeOverflow : State :=
  { loaded with
    mode := .running, svalid := 7#3,
    sx := ⟨0xFFE1CCF385EBC8A0#64, 0#64, 0#64⟩, ref := ⟨0x7FE1CCF385EBC8A0#64, 0#64, 0#64⟩ }

/-- A running instance whose samples have all been equal to the first. -/
def quietInstance : State := { beforeTick0 with mode := .running, ref := beforeTick0.sx }

/-! ### WellFormed: each check refuses an ill-formed term -/

theorem test_wellFormed_wrcfg : (Instr.wrcfg 65535 0).wellFormed = true ∧ (Instr.wrcfg 65536 0).wellFormed = false := by
  decide
theorem test_wellFormed_lds : (Instr.lds 65535 0).wellFormed = true ∧ (Instr.lds 65536 0).wellFormed = false := by decide
theorem test_wellFormed_rdsva : (Instr.rdsva 65535).wellFormed = true ∧ (Instr.rdsva 65536).wellFormed = false := by
  decide
theorem test_wellFormed_rdacc : (Instr.rdacc 65535).wellFormed = true ∧ (Instr.rdacc 65536).wellFormed = false := by
  decide
theorem test_wellFormed_rdvel : (Instr.rdvel 65535).wellFormed = true ∧ (Instr.rdvel 65536).wellFormed = false := by
  decide
theorem test_wellFormed_rdwin : (Instr.rdwin 65535).wellFormed = true ∧ (Instr.rdwin 65536).wellFormed = false := by
  decide

/-! ### Decoding: words written bit by bit from 30_encoding.md R80 and R82, op, rsv, idx -/

theorem test_decode_nop : decode ⟨0b00000000_00000000_0000000000000000#32, 5#64⟩ = .ok .nop := by decide
theorem test_decode_reset : decode ⟨0b00000001_00000000_0000000000000000#32, 0#64⟩ = .ok .reset := by decide
theorem test_decode_wrcfg : decode ⟨0b00000010_00000000_0000000100000111#32, 9#64⟩ = .ok (.wrcfg 263 9#64) := by
  decide
theorem test_decode_init : decode ⟨0b00000011_00000000_0000000000000000#32, 0#64⟩ = .ok .init := by decide
theorem test_decode_lds : decode ⟨0b00000100_00000000_0000000000000010#32, 9#64⟩ = .ok (.lds 2 9#64) := by decide
theorem test_decode_update : decode ⟨0b00000101_00000000_0000000000000000#32, 0#64⟩ = .ok .update := by decide
theorem test_decode_rdsva : decode ⟨0b00010000_00000000_0000000000011111#32, 0#64⟩ = .ok (.rdsva 31) := by decide
theorem test_decode_rdacc : decode ⟨0b00010001_00000000_0000000000000010#32, 0#64⟩ = .ok (.rdacc 2) := by decide
theorem test_decode_rdvel : decode ⟨0b00010010_00000000_0000000000000001#32, 0#64⟩ = .ok (.rdvel 1) := by decide
theorem test_decode_rdmax : decode ⟨0b00010011_00000000_0000000000000000#32, 0#64⟩ = .ok .rdmax := by decide
theorem test_decode_rdwin : decode ⟨0b00010100_00000000_0000101110110111#32, 0#64⟩ = .ok (.rdwin 2999) := by decide
theorem test_decode_rdclass : decode ⟨0b00010101_00000000_0000000000000000#32, 0#64⟩ = .ok .rdclass := by decide
theorem test_decode_rdstat : decode ⟨0b00010110_00000000_0000000000000000#32, 0#64⟩ = .ok .rdstat := by decide

/-- Section 2.1: illegal words, at the edges of the reserved ranges. -/
theorem test_decode_illegal :
    [0x06000000#32, 0x0F000000#32, 0x17000000#32, 0x80000000#32, 0xFF000000#32].all
      (fun w => decode ⟨w, 0#64⟩ = .error .reservedOpcode) = true ∧
    [0x00010000#32, 0x02FF0000#32, 0x05010000#32, 0x06010001#32].all
      (fun w => decode ⟨w, 0#64⟩ = .error .reservedField) = true ∧
    [0x00000001#32, 0x01000001#32, 0x03000001#32, 0x05000001#32, 0x13000001#32, 0x15000001#32, 0x1600FFFF#32].all
      (fun w => decode ⟨w, 0#64⟩ = .error .indexNotZero) = true := by decide

/-- The clauses of R224 at their boundary words, and a legal word beside them. -/
theorem test_illegalWord_boundaries :
    IllegalWord 0x00010000#32 ∧ IllegalWord 0x06000000#32 ∧ IllegalWord 0x0F000000#32 ∧ IllegalWord 0x17000000#32 ∧
      IllegalWord 0xFF00FFFF#32 ∧ IllegalWord 0x16000001#32 ∧ ¬ IllegalWord 0x16000000#32 ∧
      ¬ IllegalWord 0x1000FFFF#32 ∧ ¬ IllegalWord 0x05000000#32 := by
  refine ⟨?_, ?_, ?_, ?_, ?_, ?_, ?_, ?_, ?_⟩ <;> simp [IllegalWord]

/-- The encoder writes the words of R89. -/
theorem test_encode_r89 :
    encode (.wrcfg (oaIndex 17 1 0) 0xBFE0000000000000#64) = ⟨0x02000092#32, 0xBFE0000000000000#64⟩ ∧
    encode (.rdwin 2999) = ⟨0x14000BB7#32, 0#64⟩ ∧ encode .rdclass = ⟨0x15000000#32, 0#64⟩ := by decide

/-- The response words of R89 and of section 2.1. -/
theorem test_responseWord :
    responseWord statusOk 2#3 = 0x00000002#32 ∧ responseWord ErrorCode.invalidInput.code 2#3 = 0x02000002#32 ∧
    responseWord ErrorCode.numericFault.code 0#3 = 0x06000000#32 := by decide

/-- A table word with its data numbered from bit 32 up. -/
theorem test_decodeTableWord :
    decodeTableWord 32 0x02000107 = some (.wrcfg 263 0#64) ∧
    decodeTableWord 96 (7 * 2 ^ 32 + 0x04000001) = some (.lds 1 7#64) ∧ decodeTableWord 32 0x06000000 = none := by
  decide +kernel

/-! ### Arithmetic: sections 2.3, 2.4, 2.5 -/

theorem test_fadd :
    fadd 0x3FB999999999999A#64 0x3FC999999999999A#64 = 0x3FD3333333333334#64 ∧
    fadd 0x7FE1CCF385EBC8A0#64 0x7FE1CCF385EBC8A0#64 = 0x7FF0000000000000#64 := by decide +kernel
theorem test_fsub :
    fsub Config.negZero Config.negZero = Config.posZero ∧ fsub Config.negZero Config.posZero = Config.negZero ∧
    fsub 0xFFE1CCF385EBC8A0#64 0x7FE1CCF385EBC8A0#64 = 0xFFF0000000000000#64 ∧
    fsub 0x4028000000000000#64 0x4024000000000000#64 = 0x4000000000000000#64 := by decide +kernel
theorem test_fmul :
    fmul 0x3F847AE147AE147B#64 0x3FEFEDD27862EDBA#64 = 0x3F846F3F055E08C9#64 ∧
    fmul 0xBFF0000000000000#64 Config.posZero = Config.negZero ∧
    fmul 1#64 1#64 = Config.posZero := by decide +kernel
theorem test_fdiv :
    fdiv 1#64 Config.two = 0#64 ∧ fdiv 3#64 Config.two = 2#64 ∧ fdiv 2#64 Config.two = 1#64 ∧
    fdiv 0x8000000000000001#64 Config.two = Config.negZero := by decide +kernel
theorem test_norm2 :
    norm2 0x4008000000000000#64 0x4014000000000000#64 = 0x401752E50DB3A3A2#64 ∧
    norm2 0xC000000000000000#64 0x3FF4000000000000#64 = 0x4002DE32C6628741#64 ∧
    norm2 Config.negZero Config.negZero = Config.posZero := by decide +kernel
theorem test_highPass1 :
    highPass1 0x3FE0000000000000#64 0xBFF0000000000000#64 0x3FE0000000000000#64 0xBFE0000000000000#64
      0x3FD0000000000000#64 0#64 0xC010000000000000#64 0x4000000000000000#64 0xC00C000000000000#64
      0x3FF0000000000000#64 = 0x4008000000000000#64 := by decide +kernel
theorem test_integrate1 :
    integrate1 Config.two 0x4059000000000000#64 0x403C000000000000#64 0xC060000000000000#64 = Config.posZero ∧
    integrate1 Config.one Config.posZero Config.negZero Config.negZero = Config.posZero := by decide +kernel
theorem test_classify :
    classify 0x4013FFFFFFFFFFFF#64 = 0#3 ∧ classify 0x4014000000000000#64 = 1#3 ∧
    classify 0x402DFFFFFFFFFFFF#64 = 1#3 ∧ classify 0x402E000000000000#64 = 2#3 ∧
    classify 0x4048FFFFFFFFFFFF#64 = 2#3 ∧ classify 0x4049000000000000#64 = 3#3 ∧
    classify 0x4058FFFFFFFFFFFF#64 = 3#3 ∧ classify 0x4059000000000000#64 = 4#3 ∧
    classify 0#64 = 0#3 ∧ classify 0x7FEFFFFFFFFFFFFF#64 = 4#3 := by decide +kernel

/-- The host's sample period and capacity for 100, 62.5 and 200 Hz, and rates it must refuse: too high, no whole window,
zero, negative, not finite (45_host_coefficient_contract.md R202, R208). -/
theorem test_hostRates :
    hostDt ⟨100, 1⟩ = some 0x3F847AE147AE147B#64 ∧ hostWcap 6000 ⟨100, 1⟩ = some 3000 ∧
    hostWcap 6000 ⟨125, 2⟩ = some 1875 ∧ hostWcap 6000 ⟨200, 1⟩ = some 6000 ∧
    [(⟨201, 1⟩ : SampleRate), ⟨1, 7⟩, ⟨0, 1⟩, ⟨-100, 1⟩, ⟨100, 0⟩].all (fun r => hostWcap 6000 r = none) = true ∧
    [(⟨0, 1⟩ : SampleRate), ⟨-100, 1⟩, ⟨100, 0⟩].all (fun r => hostDt r = none) = true := by decide +kernel

/-- A coefficient that is not finite, or a refused rate, and the host issues nothing (R208). -/
theorem test_hostConstruct :
    let hpa : Vec3 := ⟨Config.one, 0#64, 0#64⟩
    let m : Table Mat2 32 := Table.fill 32 Mat2.zero
    hostConstruct 6000 ⟨100, 1⟩ Vec3.zero hpa m (m.set 31 ⟨0#64, 0#64, 0#64, Config.posInf⟩) =
      .error .invalidConfiguration ∧
    hostConstruct 6000 ⟨0, 1⟩ Vec3.zero hpa m m = .error .invalidConfiguration ∧
    ((hostConstruct 6000 ⟨100, 1⟩ Vec3.zero hpa m m).toOption.map List.length) = some 265 := by decide +kernel

/-- Values at the edges of R87: a literal past the largest finite value, a negative zero, an integer of 2^64 (the model's
choices, logs 15 and 16). -/
theorem test_assembler_values :
    valueF false (10 ^ 400) 1 = Config.posInf ∧ valueF true 0 1 = Config.negZero ∧ valueU (2 ^ 64) = 0#64 ∧
    valueF true 1 2 = 0xBFE0000000000000#64 ∧ valueU 3000 = 0x0BB8#64 := by decide +kernel

/-! ### The window store -/

/-- Section 2.5, ticks 3 and 4: the write wraps and evicts the oldest entry; +0.0 is not listed. -/
theorem test_window :
    Memory.write [(1, 0x3FD0000000000000#64), (2, 0x3FF6000000000000#64)] 3 0x4006000000000000#64 =
      [(1, 0x3FD0000000000000#64), (2, 0x3FF6000000000000#64), (3, 0x4006000000000000#64)] ∧
    Memory.write [(1, 0x3FD0000000000000#64)] 1 0#64 = [] ∧
    windowMax [(1, 0x3FD0000000000000#64), (2, 0x3FF6000000000000#64)] 4 = 0x3FF6000000000000#64 ∧
    (nextPointer 3#16 4, nextPointer 2#16 4, nextPointer 0#16 1) = (0#16, 3#16, 0#16) ∧
    (windowAddress 1 4 2, windowAddress 1 4 3) = (3, 0) := by decide +kernel

/-! ### One step of each command -/

/-- Section 2.2: INIT on the table of P1 succeeds and RDSTAT then reads 0x0000000400000001. -/
theorem test_init :
    (stateOf (exec .init loaded)).bind (fun t => answerOf (exec .rdstat t)) = some (0, 0, 0x0000000400000001#64) ∧
    answerOf (exec .init State.reset) = some (1, 0, 0#64) := by decide +kernel

/-- Section 3.1, tick 2: RDSVA 0 and 1, RDACC 0, RDVEL 0, RDMAX and the pointer after the UPDATE. -/
theorem test_update_tick2 :
    (stateOf (exec .update beforeTick2)).map
      (fun t => ((t.svaAt 0, t.svaAt 1, t.svaAt 31), (t.y0.c0, t.v.c0, t.max30), (t.osc.get 0, t.wptr, t.svalid))) =
    some ((0x3FB0000000000000#64, 0x3FF6000000000000#64, 0x3FD8000000000000#64),
      (0xC00C000000000000#64, 0xBFD8000000000000#64, 0x3FF6000000000000#64),
      (⟨0x3FC8000000000000#64, 0#64, 0x3FD4000000000000#64, 0#64⟩, 3#16, 0#3)) := by decide +kernel

/-- The first tick captures the reference and leaves everything else zero (41_signal_conditioner.md R132). -/
theorem test_update_tick0 :
    (stateOf (exec .update beforeTick0)).map (fun t => (t.mode, t.ref, t.x0, t.y0, t.v, t.max30)) =
      some (.running, beforeTick0.sx, Vec3.zero, Vec3.zero, Vec3.zero, 0#64) := by decide +kernel

/-- Section 3.3: the overflowing offset is NumericFault and commits nothing; a NaN component is InvalidInput. -/
theorem test_update_refused :
    exec .update beforeOverflow = .next (refusedWith { beforeOverflow with svalid := 0#3 } 6) ∧
    answerOf (exec .update { beforeTick2 with sx := ⟨0#64, 0x7FF8000000000000#64, 0#64⟩ }) = some (2, 0, 0#64) ∧
    answerOf (exec .update { beforeTick2 with svalid := 3#3 }) = some (2, 0, 0#64) := by
  refine ⟨?_, by decide +kernel, by decide +kernel⟩
  have h : beforeOverflow.sampleReady = true ∧ beforeOverflow.tick.allFinite = false := by decide +kernel
  have hm : beforeOverflow.mode ≠ .unconfigured := by decide
  rcases execUpdate_eq beforeOverflow with ⟨e, -⟩ | ⟨-, e, -⟩ | ⟨-, -, -, e⟩ | ⟨-, -, e, -⟩
  · exact absurd e hm
  · rw [h.1] at e
    cases e
  · exact e.trans (congrArg _ (State.raise_eq _ _))
  · rw [h.2] at e
    cases e

/-- The state before the index (section 2.1), and the boundaries of every index space. -/
theorem test_index_boundaries_writes :
    answerOf (exec (.wrcfg 263 1) State.reset) = some (0, 0, 0#64) ∧
    answerOf (exec (.wrcfg 264 1) State.reset) = some (5, 0, 0#64) ∧
    answerOf (exec (.wrcfg 264 1) beforeTick2) = some (4, 0, 0#64) ∧
    answerOf (exec (.lds 2 1) beforeTick2) = some (0, 0, 0#64) ∧
    answerOf (exec (.lds 3 1) beforeTick2) = some (2, 0, 0#64) := by decide +kernel

/-- The same of the read spaces. -/
theorem test_index_boundaries_reads :
    answerOf (exec (.rdsva 31) beforeTick2) = some (0, 0, 0x3FD0000000000000#64) ∧
    answerOf (exec (.rdsva 32) beforeTick2) = some (5, 0, 0#64) ∧
    answerOf (exec (.rdsva 40) State.reset) = some (4, 0, 0#64) ∧
    answerOf (exec (.rdacc 2) beforeTick2) = some (0, 0, 0x3FE0000000000000#64) ∧
    answerOf (exec (.rdacc 3) beforeTick2) = some (5, 0, 0#64) ∧
    answerOf (exec (.rdvel 2) beforeTick2) = some (0, 0, 0x3FC0000000000000#64) ∧
    answerOf (exec (.rdvel 3) beforeTick2) = some (5, 0, 0#64) ∧
    answerOf (exec (.rdwin 3) beforeTick2) = some (0, 0, 0x3FD0000000000000#64) ∧
    answerOf (exec (.rdwin 4) beforeTick2) = some (5, 0, 0#64) := by decide +kernel

/-- Section 2.6: the reads without an index, and the status word with two components staged. -/
theorem test_reads :
    answerOf (exec .rdmax beforeTick2) = some (0, 0, 0x3FD0000000000000#64) ∧
    answerOf (exec .rdclass { beforeTick2 with lclass := 1#3 }) = some (0, 1, 1#64) ∧
    answerOf (exec .rdmax State.reset) = some (4, 0, 0#64) ∧ answerOf (exec .rdclass State.reset) = some (4, 0, 0#64) ∧
    answerOf (exec .rdstat { beforeTick0 with svalid := 5#3 }) = some (0, 0, 0x0000000400000015#64) ∧
    answerOf (exec .rdstat { beforeTick2 with svalid := 7#3, lclass := 2#3, errflags := 4#8 }) =
      some (0, 2, 0x000000040000045E#64) := by decide +kernel

/-- RESET from RUNNING (section 2.2). -/
theorem test_reset :
    (stateOf (exec .reset beforeTick2)).map (fun t => (t.mode, t.cw.get 0, t.win.length, t.ref)) =
      some (.unconfigured, false, 0, Vec3.zero) := by decide +kernel

/-- NOP with class 3 (40_configuration.md R110), an illegal word in UNCONFIGURED (section 3.3). -/
theorem test_nop_illegal :
    answerOf (exec .nop { beforeTick2 with lclass := 3#3 }) = some (0, 3, 0#64) ∧
    (stateOf (step (State.reset.withFetchWord 32 0x06000000))).map (fun t => (t.errflags, t.delivered, t.pending)) =
      some (0x08#8, [⟨0x03000000#32, 0#64⟩], []) := by decide +kernel

/-! ### Witnesses: states and operands that meet the hypotheses of each statement -/

theorem exists_next {r : Result} {p : State → Bool} (h : (stateOf r).any p = true) : ∃ t, r = .next t ∧ p t = true := by
  cases r with
  | next t => exact ⟨t, rfl, h⟩
  | fault e => cases e
  | refused e => cases h

/-- An accepted tick completes with its commit, so no witness evaluates the tick twice. -/
theorem update_of_accepted {s : State} (h : TickAccepted s) :
    exec .update s = .next (s.unstage.commit s.tick).respondClass := by
  obtain ⟨⟨hm, hv, hf⟩, ht⟩ := h
  rcases execUpdate_eq s with ⟨e, -⟩ | ⟨-, e, -⟩ | ⟨-, -, e, -⟩ | ⟨-, -, -, e⟩
  · exact absurd e hm
  · simp [State.sampleReady, hv, hf] at e
  · rw [ht] at e
    cases e
  · exact e

/-- An accepted tick of a running instance: UpdateCommitsTick and every statement about an accepted tick. -/
theorem witness_tick_running : Inv beforeTick2 ∧ TickAccepted beforeTick2 ∧ beforeTick2.mode = .running :=
  ⟨by decide +kernel, by decide +kernel, rfl⟩

/-- The first tick of an instance. -/
theorem witness_tick_first : Inv beforeTick0 ∧ TickAccepted beforeTick0 ∧ beforeTick0.mode = .uninitialized :=
  ⟨by decide +kernel, by decide +kernel, rfl⟩

theorem witness_EncodedCommandsDecode :
    (Instr.rdwin 65535).wellFormed = true ∧ decode ⟨0x1400FFFF#32, 0#64⟩ = .ok (.rdwin 65535) ∧
      decode ⟨0x0400FFFF#32, 1#64⟩ = .ok (.lds 65535 1#64) := by decide

theorem witness_StepRunsDecodedCommand :
    (beforeTick2.present (encode .rdmax)).pending = .command (encode .rdmax) :: [] ∧
      decode (encode .rdmax) = .ok .rdmax := by decide

theorem witness_HardwareReset_and_Idle :
    { beforeTick2 with pending := [.hardwareReset] }.pending = .hardwareReset :: [] ∧ beforeTick2.pending = [] := by
  decide

theorem witness_EveryStepKeepsInvariant :
    Inv (beforeTick2.present (encode (.lds 1 0))) ∧
      ∃ t, step (beforeTick2.present (encode (.lds 1 0))) = .next t ∧ (t.svalid == 7#3) = true :=
  ⟨by decide +kernel, exists_next (by decide +kernel)⟩

theorem witness_RunAnswersEveryCommandInOrder :
    { beforeTick2 with pending := [.command (encode .nop), .command ⟨0x06000000#32, 0#64⟩] }.pending =
      [encode .nop, ⟨0x06000000#32, 0#64⟩].map HostEvent.command := by decide

theorem witness_StateChangesOnlyAsListed :
    (∃ t, step (loaded.present (encode .init)) = .next t ∧ (t.mode != loaded.mode) = true) ∧
    (∃ t, exec .update beforeTick0 = .next t ∧ t.mode ≠ beforeTick0.mode) ∧
    ∃ t, step { beforeTick2 with pending := [.hardwareReset] } = .next t ∧ (t.mode != beforeTick2.mode) = true :=
  ⟨exists_next (by decide +kernel), ⟨_, update_of_accepted witness_tick_first.2.1, by decide⟩,
    exists_next (by decide +kernel)⟩

theorem witness_InstanceKeepsTableAndReference :
    beforeTick2.mode ≠ .unconfigured ∧
    (∀ e ∈ (beforeTick2.present (encode (.wrcfg 0 0))).pending,
      e ≠ .hardwareReset ∧ ∀ d, e ≠ .command ⟨0x01000000#32, d⟩) ∧
    ∃ t : State, Host.Core.run Sys2Proof.core 1 (beforeTick2.present (encode (.wrcfg 0 0))) = .next t := by
  refine ⟨by decide, ?_, _, rfl⟩
  have h : (encode (.wrcfg 0 0)).word ≠ 0x01000000#32 := by decide
  intro e he
  simp only [State.present, beforeTick2, loaded, State.reset, List.mem_singleton] at he
  subst he
  exact ⟨by simp, fun d hd => h (by injection hd with hd; rw [hd])⟩

theorem witness_UnwrittenTableDataIsUnobservable :
    (∀ i, State.reset.cw.get i = true → (Table.fill 264 1#64).get i = State.reset.cfg.get i) ∧
    State.reset.mode = .unconfigured ∧ (Table.fill 264 1#64 : Table W64 264) ≠ State.reset.cfg ∧
    ∃ t : State, Host.Core.run Sys2Proof.core 1 (State.reset.present (encode (.wrcfg 3 5))) = .next t :=
  ⟨by decide +kernel, rfl, by decide +kernel, _, rfl⟩

/-- WrcfgRule, LdsRule and the reads: a state for each clause; the boundary indices are those of
test_index_boundaries_writes and test_index_boundaries_reads. -/
theorem witness_index_rules :
    State.reset.mode = .unconfigured ∧ beforeTick2.mode ≠ .unconfigured ∧ beforeTick2.wcap = 4 := by decide +kernel

theorem witness_InitRule :
    loaded.mode = .unconfigured ∧ TablePasses loaded ∧ ¬ TablePasses State.reset ∧
      beforeTick0.mode ≠ .unconfigured := by decide +kernel

theorem witness_ConstructCreatesInstance :
    State.reset.mode = .unconfigured ∧ State.reset.lclass = 0#3 ∧
    { State.reset with pending := hostEvents (construct p1Table) }.pending = hostEvents (construct p1Table) ∧
    TablePasses { State.reset with cfg := p1Table, cw := Table.fill 264 true } ∧
    ¬ TablePasses { State.reset with cfg := Table.fill 264 0#64, cw := Table.fill 264 true } :=
  ⟨rfl, rfl, rfl, by decide +kernel, by decide +kernel⟩

/-- Coefficients with a capacity that fits 32 bits, at both ends. -/
theorem witness_HostTableMatchesViews :
    let c : Coefficients := ⟨⟨1#64, 2#64, 3#64⟩, ⟨4#64, 5#64, 6#64⟩, 7#64, 2 ^ 32 - 1, Table.fill 32 Mat2.zero,
      Table.fill 32 ⟨1#64, 2#64, 3#64, 4#64⟩⟩
    c.wcap < 2 ^ 32 ∧ { State.reset with cfg := c.table }.cfg = c.table := ⟨by decide, rfl⟩

/-- UpdateRefusals, ReferenceCaptureRule: a state for each refusal. -/
theorem witness_UpdateRefusals :
    State.reset.mode = .unconfigured ∧ ¬ TickAccepted State.reset ∧
    ({ beforeTick2 with svalid := 3#3 }.mode ≠ .unconfigured ∧ { beforeTick2 with svalid := 3#3 }.svalid ≠ 0b111#3) ∧
    isFinite ({ beforeTick2 with sx := ⟨0#64, Config.posInf, 0#64⟩ }.sx.get 1) = false ∧
    Admitted beforeOverflow ∧ ¬ TickAccepted beforeOverflow := by decide +kernel

theorem witness_ReferenceWrittenOncePerInstance :
    (∃ t, exec .update beforeTick0 = .next t ∧ t.ref ≠ beforeTick0.ref) ∧
      ∃ t, exec .reset beforeTick2 = .next t ∧ (t.ref != beforeTick2.ref) = true :=
  ⟨⟨_, update_of_accepted witness_tick_first.2.1, by decide⟩, exists_next (by decide +kernel)⟩

/-- OffsetRemovalRule, HighPassRule, IntegratorRule, BankRecursionRule, SpectrumRule: a stage that is not finite, and a
component equal to its reference. -/
theorem witness_stage_not_finite :
    Admitted beforeOverflow ∧ beforeOverflow.mode = .running ∧
    isFinite (fsub (beforeOverflow.sx.get 0) (beforeOverflow.ref.get 0)) = false ∧
    isFinite (beforeOverflow.tickY0.get 0) = false ∧ isFinite (beforeOverflow.tickV.get 0) = false ∧
    isFinite ((beforeOverflow.tickOsc.get 0).get 0 0) = false ∧
    beforeTick2.sx.get 1 = beforeTick2.ref.get 1 := by decide +kernel

/-- SpectrumRule: a velocity of 1e200, whose square overflows (section 2.4). -/
theorem witness_spectrum_not_finite :
    Admitted { quietInstance with v := ⟨0x6974E718D7D7625A#64, 0#64, 0#64⟩ } ∧
    isFinite (State.tickSva { quietInstance with v := ⟨0x6974E718D7D7625A#64, 0#64, 0#64⟩ } |>.get 0) = false := by
  decide +kernel

theorem witness_IntegratorRule : ∃ t, exec .update beforeTick2 = .next t ∧ t.v ≠ beforeTick2.v :=
  ⟨_, update_of_accepted witness_tick_running.2.1, by decide +kernel⟩

/-- P1's state with another vertical component throughout. -/
def otherVertical : State :=
  { beforeTick2 with
    sx := beforeTick2.sx.set 2 0#64, ref := beforeTick2.ref.set 2 Config.one, x0 := beforeTick2.x0.set 2 Config.two,
    x1 := beforeTick2.x1.set 2 0#64, x2 := beforeTick2.x2.set 2 0#64, y0 := beforeTick2.y0.set 2 Config.one,
    y1 := beforeTick2.y1.set 2 0#64, v := beforeTick2.v.set 2 Config.two }

theorem witness_VerticalComponentStopsAtIntegrator :
    TickAccepted otherVertical ∧ otherVertical ≠ beforeTick2 ∧ ∃ t, exec .update otherVertical = .next t :=
  have h : TickAccepted otherVertical := by decide +kernel
  ⟨h, by decide +kernel, _, update_of_accepted h⟩

/-- P1's state with another channel 1; channel 0 meets every hypothesis. -/
def otherChannel : State := { beforeTick2 with osc := beforeTick2.osc.set 1 ⟨Config.one, Config.two, 0#64, 0#64⟩ }

theorem witness_LanesAreIndependent :
    TickAccepted otherChannel ∧ otherChannel ≠ beforeTick2 ∧
    beforeTick2.oa 0 = otherChannel.oa 0 ∧ beforeTick2.ob 0 = otherChannel.ob 0 ∧
    beforeTick2.osc.get 0 = otherChannel.osc.get 0 ∧ beforeTick2.y0 = otherChannel.y0 ∧
    ∃ t t', exec .update beforeTick2 = .next t ∧ exec .update otherChannel = .next t' ∧ t.y0 = t'.y0 ∧ t.v = t'.v ∧
      t.osc.get 0 = t'.osc.get 0 :=
  have h : TickAccepted otherChannel := by decide +kernel
  ⟨h, by decide +kernel, rfl, rfl, by decide, rfl, _, _, update_of_accepted witness_tick_running.2.1,
    update_of_accepted h, by decide +kernel, by decide +kernel, by decide +kernel⟩

/-- LogicalWindowRule: both ends of the window, and an index past them. -/
theorem witness_LogicalWindowRule :
    Inv beforeTick2 ∧ beforeTick2.mode ≠ .unconfigured ∧ 0 < beforeTick2.wcap ∧ 3 < beforeTick2.wcap ∧
      ¬ 4 < beforeTick2.wcap ∧ ∃ t, exec .update beforeTick2 = .next t ∧ t.wptr = 3#16 :=
  ⟨witness_tick_running.1, by decide, by decide +kernel, by decide +kernel, by decide +kernel,
    _, update_of_accepted witness_tick_running.2.1, by decide +kernel⟩

/-- ClassificationRule and RdwinRule: values at both ends of the range, and a command that writes LCLASS and WIN. -/
theorem witness_ClassificationRule :
    NonNegative 0#64 ∧ NonNegative 0x7FEFFFFFFFFFFFFF#64 ∧ ¬ NonNegative 0x7FF0000000000000#64 ∧
    ∃ t, exec .reset { beforeTick2 with lclass := 1#3 } = .next t ∧
      (t.lclass != 1#3 && t.win != beforeTick2.win) = true :=
  ⟨by decide, by decide, by decide, exists_next (by decide +kernel)⟩

theorem witness_ConstantSampleKeepsQuiet :
    (Inv beforeTick0 ∧ Admitted beforeTick0 ∧ beforeTick0.mode = .uninitialized) ∧
    Inv quietInstance ∧ Admitted quietInstance ∧ quietInstance.mode = .running ∧ Quiet quietInstance ∧
      quietInstance.sx = quietInstance.ref :=
  ⟨by decide +kernel, by decide +kernel, by decide +kernel, rfl,
    ⟨rfl, rfl, rfl, by decide +kernel, by decide +kernel, rfl, by decide +kernel, rfl, fun _ => rfl, rfl, rfl⟩, rfl⟩

theorem witness_ConstantStreamIsSilent :
    let r : Vec3 := ⟨Config.one, Config.negZero, 1#64⟩
    let s := { beforeTick0 with pending := hostEvents (List.replicate 2 (sample r.c0 r.c1 r.c2)).flatten }
    Inv s ∧ s.mode = .uninitialized ∧ r.allFinite = true ∧
      s.pending = hostEvents (List.replicate 2 (sample r.c0 r.c1 r.c2)).flatten :=
  ⟨by decide +kernel, rfl, by decide +kernel, rfl⟩

/-- PseudoInstructionResults: an instance with each list pending, and responses with and without an error. -/
theorem witness_PseudoInstructionResults :
    Inv beforeTick2 ∧ beforeTick2.mode ≠ .unconfigured ∧
    { beforeTick2 with pending := hostEvents getSpectrum }.pending = hostEvents getSpectrum ∧
    { beforeTick2 with pending := hostEvents (sample 0 0 1) }.pending = hostEvents (sample 0 0 1) ∧
    statusOf ⟨0x00000002#32, 0#64⟩ = 0 ∧ statusOf ⟨0x05000000#32, 0#64⟩ ≠ 0 :=
  ⟨witness_tick_running.1, by decide, rfl, rfl, by decide, by decide⟩

/-- SNAPSHOT takes its length from RDSTAT's answer (section 2.6: 0x0000000400000001 has WCAP 4), and its result leaves
RDSTAT's word out; CONSTRUCT's result is the first error. -/
theorem test_pseudo :
    snapshot ⟨0#32, 0x0000000400000001#64⟩ = [.rdstat, .rdwin 0, .rdwin 1, .rdwin 2, .rdwin 3] ∧
    snapshotResult [⟨0#32, 0x0000000100000002#64⟩, ⟨0#32, 7#64⟩] = [7#64] ∧
    constructResult [⟨0#32, 0#64⟩, ⟨0x04000000#32, 0#64⟩, ⟨0x01000000#32, 0#64⟩] = some ⟨0x04000000#32, 0#64⟩ := by
  decide

/-- ReadsChangeNothing: a read that answers and one that is refused, before the first tick and after it. -/
theorem witness_ReadsChangeNothing :
    IsRead (.rdsva 31) ∧ IsRead (.rdwin 4) ∧
    (∃ t, exec (.rdsva 31) beforeTick0 = .next t ∧ (t.errflags == 0#8) = true) ∧
    ∃ t, exec (.rdwin 4) beforeTick2 = .next t ∧ (t.errflags == 0x20#8) = true :=
  ⟨trivial, trivial, exists_next (by decide +kernel), exists_next (by decide +kernel)⟩

/-- StatusCodesRule and ErrorEntryRule: a packet that is no command, and an UPDATE refused with code 2. -/
theorem witness_ErrorEntryRule :
    (∃ t, step (State.reset.present ⟨0x06000000#32, 0#64⟩) = .next t ∧
      (t.delivered == State.reset.delivered ++ [⟨0x03000000#32, 0#64⟩]) = true) ∧
    (∃ t, step ({ beforeTick2 with svalid := 3#3 }.present (encode .update)) = .next t ∧
      (t.delivered == beforeTick2.delivered ++ [⟨0x02000000#32, 0#64⟩]) = true) ∧
    statusOf ⟨0x03000000#32, 0#64⟩ ≠ 0 ∧ statusOf ⟨0x02000000#32, 0#64⟩ ≠ 0 :=
  ⟨exists_next (by decide +kernel), exists_next (by decide +kernel), by decide, by decide⟩

/-- The worth of 3.0. -/
theorem value_three : value 0x4008000000000000#64 = 3 := by
  have h1 : signBit 0x4008000000000000#64 = false := by decide
  have h2 : expField 0x4008000000000000#64 = 1024 := by decide
  have h3 : fracField 0x4008000000000000#64 = 2 ^ 51 := by decide
  have e : ((1024 : ℕ) : ℤ) - 1023 = 1 := by decide
  unfold value
  simp only [h1, h2, h3, e, Bool.false_eq_true, if_false, OfNat.ofNat_ne_zero, zpow_one]
  norm_num

/-- The worth of a zero. -/
theorem value_zero : value 0#64 = 0 := by
  have h2 : expField 0#64 = 0 := by decide
  have h3 : fracField 0#64 = 0 := by decide
  simp [value, h2, h3]

/-- SumsRoundOnce, ProductsRoundOnce, QuotientsRoundOnce, RootsRoundOnce, ComparisonRule, ClassificationRule: finite
operands of either clause, and a NaN. -/
theorem witness_arithmetic :
    isFinite 0x4008000000000000#64 = true ∧ isFinite 0#64 = true ∧ isNaN 0x7FF8000000000001#64 = true ∧
    value 0x4008000000000000#64 + value 0#64 ≠ 0 ∧ value 0#64 + value 0#64 = 0 ∧
    value 0x4008000000000000#64 * value 0x4008000000000000#64 ≠ 0 ∧ value 0#64 < value 0x4008000000000000#64 := by
  refine ⟨by decide, by decide, by decide, ?_, ?_, ?_, ?_⟩ <;> simp [value_three, value_zero]

end Sys2Proof.Tests
end

section
/-! PROOFS. The arithmetic of 00_scope.md R9 and R10. Every operation that rounds goes through `roundMag`, so one theorem,
`roundsTo_pack_roundMag`, says that it rounds once; each operation then only shows that the integers it hands over stand
for its exact result. The root's integers do not equal the root: `SameSide` is what they share with it. -/

namespace Sys2Proof.Arithmetic

open Sys2Proof Sys2Proof.Machine Sys2Proof.Safety

/-! ### The worth of a pattern, in units of 2^−1074 (R8) -/

theorem expField_pack {neg : Bool} {bits : Nat} (h : bits < 2 ^ 63) : expField (pack neg bits) = bits / 2 ^ 52 := by
  unfold expField
  rw [pack_toNat h]
  cases neg <;> simp only [if_true, if_false, Bool.false_eq_true] <;> omega

theorem fracField_pack {neg : Bool} {bits : Nat} (h : bits < 2 ^ 63) : fracField (pack neg bits) = bits % 2 ^ 52 := by
  unfold fracField
  rw [pack_toNat h]
  cases neg <;> simp only [if_true, if_false, Bool.false_eq_true] <;> omega

theorem fracField_lt (w : W64) : fracField w < 2 ^ 52 := Nat.mod_lt _ (by norm_num)

theorem expField_lt_of_isFinite {w : W64} (h : isFinite w = true) : expField w < 2047 := by
  have hlt : expField w < 2 ^ 11 := Nat.mod_lt _ (by norm_num)
  have hne : expField w ≠ 2047 := by simpa [isFinite] using h
  omega

/-- A subnormal or zero, or the normal exponent that scales the significand by 2^e. -/
theorem expField_eq_zero_or_succ (w : W64) : expField w = 0 ∨ ∃ e, expField w = e + 1 := by
  cases expField w <;> simp

theorem magnitude_subnormal {w : W64} (h : expField w = 0) : magnitude w = fracField w := if_pos h

theorem magnitude_normal {w : W64} {e : Nat} (h : expField w = e + 1) :
    magnitude w = (2 ^ 52 + fracField w) * 2 ^ e := by
  simp [magnitude, h]

/-- R8's formula without its sign. -/
theorem magnitude_div_eq (w : W64) :
    (magnitude w : ℚ) / 2 ^ 1074 =
      if expField w = 0 then (fracField w : ℚ) / 2 ^ 52 * (2 : ℚ) ^ (-1022 : ℤ)
      else (2 : ℚ) ^ ((expField w : ℤ) - 1023) * (1 + (fracField w : ℚ) / 2 ^ 52) := by
  have hpow : (2 : ℚ) ^ 1074 = 2 ^ 52 * 2 ^ 1022 := by rw [← pow_add]
  have hpos : (0 : ℚ) < 2 ^ 1022 := by positivity
  obtain he | ⟨e, he⟩ := expField_eq_zero_or_succ w
  · have hinv : (2 : ℚ) ^ (-1022 : ℤ) = (2 ^ 1022)⁻¹ := by
      rw [zpow_neg, show (1022 : ℤ) = ((1022 : ℕ) : ℤ) from rfl, zpow_natCast]
    rw [if_pos he, magnitude_subnormal he, hpow, hinv, div_mul_eq_div_div, div_eq_mul_inv (_ / _)]
  · have hexp : (2 : ℚ) ^ (((e + 1 : ℕ) : ℤ) - 1023) = 2 ^ e / 2 ^ 1022 := by
      rw [show ((e + 1 : ℕ) : ℤ) - 1023 = (e : ℤ) - ((1022 : ℕ) : ℤ) by push_cast; ring,
        zpow_sub₀ two_ne_zero, zpow_natCast, zpow_natCast]
    rw [if_neg (by omega), magnitude_normal he, he, hpow, hexp]
    generalize (2 : ℚ) ^ 1022 = p at hpos
    push_cast
    field_simp
    norm_num

/-- The value of R8 is the model's whole number of units. -/
theorem value_eq_units (w : W64) : value w = (units w : ℚ) / 2 ^ 1074 := by
  rw [value, ← magnitude_div_eq, units]
  cases signBit w <;> simp [neg_div]

theorem unit_pos : (0 : ℚ) < 2 ^ 1074 := by positivity

theorem value_eq_zero_iff (w : W64) : value w = 0 ↔ isZero w = true := by
  rw [value_eq_units, div_eq_zero_iff, or_iff_left unit_pos.ne', Int.cast_eq_zero, ← magnitude_eq_zero_iff, units]
  cases signBit w <;> simp

theorem value_fneg (w : W64) : value (fneg w) = -value w := by
  rw [value_eq_units, value_eq_units, units_fneg, Int.cast_neg, neg_div]

theorem value_real_eq (w : W64) : (value w : ℝ) = units w / 2 ^ 1074 := by
  rw [value_eq_units]
  push_cast
  rfl

theorem natAbs_units (w : W64) : (units w).natAbs = magnitude w := by
  cases h : signBit w <;> simp [units, h]

theorem abs_value_mul_unit (w : W64) : |(value w : ℝ)| * 2 ^ 1074 = magnitude w := by
  have hu : (0 : ℝ) < 2 ^ 1074 := by positivity
  rw [value_real_eq, abs_div, abs_of_pos hu, div_mul_cancel₀ _ hu.ne', ← natAbs_units, Nat.cast_natAbs, Int.cast_abs]

theorem magnitude_pos {w : W64} (h : value w ≠ 0) : 0 < magnitude w :=
  Nat.pos_of_ne_zero fun h0 => h ((value_eq_zero_iff w).2 ((magnitude_eq_zero_iff w).1 h0))

theorem signBit_iff_value_neg {w : W64} (h : value w ≠ 0) : signBit w = true ↔ value w < 0 := by
  have hm := magnitude_pos h
  rw [value_eq_units, div_lt_iff₀ unit_pos, zero_mul, Int.cast_lt_zero]
  cases hs : signBit w <;> simp [units, hs, hm]

theorem signBit_eq_false_iff_value_pos {w : W64} (h : value w ≠ 0) : signBit w = false ↔ 0 < value w := by
  rw [← Bool.not_eq_true, signBit_iff_value_neg h, not_lt, h.symm.le_iff_lt]

theorem value_lt_iff (a b : W64) : value a < value b ↔ units a < units b := by
  rw [value_eq_units, value_eq_units, div_lt_div_iff_of_pos_right unit_pos, Int.cast_lt]

/-- A finite value is less than 2^2098 units, which is 2^1024. -/
theorem magnitude_lt_of_isFinite {w : W64} (h : isFinite w = true) : magnitude w < 2 ^ 2098 := by
  have he := expField_lt_of_isFinite h
  have hf := fracField_lt w
  obtain hz | ⟨e, hs⟩ := expField_eq_zero_or_succ w
  · rw [magnitude_subnormal hz]
    exact hf.trans_le (pow_le_pow_right₀ one_le_two (by norm_num))
  · rw [magnitude_normal hs]
    calc (2 ^ 52 + fracField w) * 2 ^ e < 2 ^ 53 * 2 ^ e :=
          Nat.mul_lt_mul_of_pos_right (by omega) (by positivity)
      _ = 2 ^ (53 + e) := (pow_add ..).symm
      _ ≤ 2 ^ 2098 := pow_le_pow_right₀ one_le_two (by omega)

/-- The patterns at or above 2^52·2^q units lie on the grid of 2^q units. -/
theorem magnitude_on_grid_or_lt (w : W64) (q : Nat) :
    (∃ k, magnitude w = k * 2 ^ q) ∨ (0 < q ∧ magnitude w < 2 ^ 52 * 2 ^ q) := by
  have hf := fracField_lt w
  obtain rfl | hq := q.eq_zero_or_pos
  · exact .inl ⟨magnitude w, by simp⟩
  obtain hz | ⟨e, hs⟩ := expField_eq_zero_or_succ w
  · refine .inr ⟨hq, ?_⟩
    rw [magnitude_subnormal hz]
    exact hf.trans_le (Nat.le_mul_of_pos_right _ (by positivity))
  · rw [magnitude_normal hs]
    obtain hle | hlt := le_or_gt q e
    · refine .inl ⟨(2 ^ 52 + fracField w) * 2 ^ (e - q), ?_⟩
      rw [mul_assoc, ← pow_add, Nat.sub_add_cancel hle]
    · refine .inr ⟨hq, ?_⟩
      calc (2 ^ 52 + fracField w) * 2 ^ e < 2 ^ 53 * 2 ^ e :=
            Nat.mul_lt_mul_of_pos_right (by omega) (by positivity)
        _ = 2 ^ 52 * 2 ^ (e + 1) := by ring
        _ ≤ 2 ^ 52 * 2 ^ q := Nat.mul_le_mul_left _ (Nat.pow_le_pow_right (by norm_num) hlt)

/-- The layout `roundMag` relies on: the bits q·2^52 + m hold the significand `m` at scale `q`, also when a subnormal
has no hidden bit and when the significand has carried out to 2^53. -/
theorem magnitude_pack {neg : Bool} {q m : Nat} (hm : m ≤ 2 ^ 53) (hq : 0 < q → 2 ^ 52 ≤ m)
    (hlt : q * 2 ^ 52 + m < 2 ^ 63) : magnitude (pack neg (q * 2 ^ 52 + m)) = m * 2 ^ q := by
  have he := expField_pack (neg := neg) hlt
  have hf := fracField_pack (neg := neg) hlt
  obtain hsub | hnorm | hcarry : m < 2 ^ 52 ∨ (2 ^ 52 ≤ m ∧ m < 2 ^ 53) ∨ m = 2 ^ 53 := by omega
  · obtain rfl : q = 0 := by omega
    rw [magnitude_subnormal (by omega), hf]
    omega
  · rw [magnitude_normal (e := q) (by omega), hf]
    congr 1
    omega
  · rw [magnitude_normal (e := q + 1) (by omega), hf, hcarry, pow_succ' 2 q]
    have : (q * 2 ^ 52 + 2 ^ 53) % 2 ^ 52 = 0 := by omega
    rw [this]
    ring

/-! ### Rounding to the nearest integer, ties to even -/

/-- The ratio `num / d` lies on the same side of every multiple of one half as the real `z`: all that rounding to an
integer looks at. -/
def SameSide (num d : Nat) (z : ℝ) : Prop :=
  ∀ k : Nat, (k * d ≤ 2 * num ↔ (k : ℝ) ≤ 2 * z) ∧ (2 * num ≤ k * d ↔ 2 * z ≤ k)

theorem sameSide_div {num d : Nat} (hd : 0 < d) : SameSide num d (num / d) := by
  intro k
  have hd' : (0 : ℝ) < d := by exact_mod_cast hd
  rw [← mul_div_assoc, le_div_iff₀ hd', div_le_iff₀ hd']
  exact ⟨by exact_mod_cast Iff.rfl, by exact_mod_cast Iff.rfl⟩

theorem SameSide.lt_iff {num d : Nat} {z : ℝ} (h : SameSide num d z) (k : Nat) :
    2 * num < k * d ↔ 2 * z < k := by
  simpa only [not_le] using not_congr (h k).1

theorem SameSide.gt_iff {num d : Nat} {z : ℝ} (h : SameSide num d z) (k : Nat) :
    k * d < 2 * num ↔ (k : ℝ) < 2 * z := by
  simpa only [not_le] using not_congr (h k).2

/-- `m` is `z` rounded to the nearest integer, ties to even. -/
def NearestEven (m : Nat) (z : ℝ) : Prop := |(m : ℝ) - z| ≤ 1 / 2 ∧ (|(m : ℝ) - z| = 1 / 2 → m % 2 = 0)

theorem nearestEven_of_lt {m : Nat} {z : ℝ} (h : |(m : ℝ) - z| < 1 / 2) : NearestEven m z :=
  ⟨h.le, fun he => absurd he h.ne⟩

theorem roundEven_below {num d : Nat} (h : 2 * (num % d) < d) : roundEven num d = num / d := by
  simp [roundEven, h.ne, h.not_gt]

theorem roundEven_above {num d : Nat} (h : d < 2 * (num % d)) : roundEven num d = num / d + 1 := by
  simp [roundEven, h]

theorem roundEven_tie {num d : Nat} (h : 2 * (num % d) = d) : roundEven num d = num / d + num / d % 2 := by
  unfold roundEven
  obtain hp | hp := Nat.mod_two_eq_zero_or_one (num / d) <;> simp [h, hp]

theorem nearestEven_roundEven {num d : Nat} {z : ℝ} (hd : 0 < d) (h : SameSide num d z) :
    NearestEven (roundEven num d) z := by
  have hnum : num / d * d + num % d = num := Nat.div_add_mod' num d
  have hlow := (h (2 * (num / d))).1.1 (by
    rw [mul_assoc]
    exact Nat.mul_le_mul_left 2 (Nat.div_mul_le_self num d))
  have hhigh := (h.lt_iff (2 * (num / d) + 2)).1 (by nlinarith [Nat.mod_lt num hd])
  have hmid_lt := h.lt_iff (2 * (num / d) + 1)
  have hmid_gt := h.gt_iff (2 * (num / d) + 1)
  push_cast at hlow hhigh hmid_lt hmid_gt
  obtain hr | hr | hr := lt_trichotomy (2 * (num % d)) d
  · have hz := hmid_lt.1 (by linarith)
    rw [roundEven_below hr]
    exact nearestEven_of_lt (abs_lt.2 ⟨by linarith, by linarith⟩)
  · have hle : 2 * z ≤ 2 * (num / d : ℕ) + 1 := not_lt.1 fun hc => by linarith [hmid_gt.2 hc]
    have hge : 2 * ((num / d : ℕ) : ℝ) + 1 ≤ 2 * z := not_lt.1 fun hc => by linarith [hmid_lt.2 hc]
    rw [roundEven_tie hr]
    refine ⟨?_, fun _ => by omega⟩
    obtain hp | hp := Nat.mod_two_eq_zero_or_one (num / d) <;> rw [hp] <;> push_cast <;>
      exact abs_le.2 ⟨by linarith, by linarith⟩
  · have hz := hmid_gt.1 (by linarith)
    rw [roundEven_above hr]
    refine nearestEven_of_lt ?_
    push_cast
    exact abs_lt.2 ⟨by linarith, by linarith⟩

/-- No integer is nearer to `z` than `m`, and none ties with an odd `m`. -/
theorem NearestEven.le_int {m : Nat} {z : ℝ} (h : NearestEven m z) (k : ℤ) :
    |(m : ℝ) - z| ≤ |(k : ℝ) - z| ∧ (k ≠ m → |(m : ℝ) - z| = |(k : ℝ) - z| → m % 2 = 0) := by
  obtain ⟨hhalf, heven⟩ := h
  obtain rfl | hne := eq_or_ne k m
  · exact ⟨by simp, fun hc => absurd rfl hc⟩
  · have hone : (1 : ℝ) ≤ |(m : ℝ) - k| := by
      have : (1 : ℤ) ≤ |(m : ℤ) - k| := Int.one_le_abs (sub_ne_zero.2 hne.symm)
      exact_mod_cast this
    have htri : |(m : ℝ) - k| ≤ |(m : ℝ) - z| + |(k : ℝ) - z| := by
      rw [abs_sub_comm (k : ℝ) z]
      exact abs_sub_le ..
    exact ⟨by linarith, fun _ he => heven (by linarith)⟩

/-- The same among all `u / 2^q` that a pattern of `u` units can be: an integer, or a number below every significand of
scale `q`. -/
theorem NearestEven.le_pattern {m q : Nat} {z : ℝ} {u : ℤ} (h : NearestEven m z) (hz : 0 < q → 2 ^ 52 ≤ z)
    (hu : (∃ k : ℤ, u = k * 2 ^ q) ∨ (0 < q ∧ u < 2 ^ 52 * 2 ^ q)) :
    |(m : ℝ) - z| ≤ |(u : ℝ) / 2 ^ q - z| ∧
      (u ≠ m * 2 ^ q → |(m : ℝ) - z| = |(u : ℝ) / 2 ^ q - z| → m % 2 = 0) := by
  have hpos : (0 : ℝ) < 2 ^ q := by positivity
  obtain ⟨k, rfl⟩ | ⟨hq, hlt⟩ := hu
  · have hk : ((k * 2 ^ q : ℤ) : ℝ) / 2 ^ q = k := by
      push_cast
      exact mul_div_cancel_right₀ _ hpos.ne'
    rw [hk]
    exact ⟨(h.le_int k).1, fun hne => (h.le_int k).2 fun hc => hne (by rw [hc])⟩
  · have hlt' : (u : ℝ) / 2 ^ q < 2 ^ 52 := by
      rw [div_lt_iff₀ hpos]
      exact_mod_cast hlt
    have hnear : |(m : ℝ) - z| ≤ |(2 : ℝ) ^ 52 - z| := by
      have := (h.le_int (2 ^ 52)).1
      rwa [Int.cast_pow, Int.cast_ofNat] at this
    have hfar : |(2 : ℝ) ^ 52 - z| < |(u : ℝ) / 2 ^ q - z| := by
      rw [abs_of_nonpos (by linarith [hz hq]), abs_of_nonpos (by linarith [hz hq])]
      linarith
    exact ⟨(hnear.trans_lt hfar).le, fun _ he => absurd he (hnear.trans_lt hfar).ne⟩

/-! ### One rounding to a pattern -/

/-- The scale leaves at most 53 bits before the point, and exactly 53 unless the value is subnormal. -/
theorem scaleOf_bounds {num den : Nat} {z : ℝ} (hden : 0 < den) (hlt : num / den < 2 ^ (2 ^ 13))
    (h : SameSide num (den * 2 ^ scaleOf num den) z) : z < 2 ^ 53 ∧ (0 < scaleOf num den → 2 ^ 52 ≤ z) := by
  have hq : scaleOf num den = Nat.log2 (num / den) - 52 := by rw [scaleOf, floorLog2_eq hlt]
  have hpos : 0 < 2 ^ scaleOf num den := by positivity
  constructor
  · have hup : num < 2 ^ (Nat.log2 (num / den) + 1) * den := (Nat.div_lt_iff_lt_mul hden).1 Nat.lt_log2_self
    have hup' : 2 ^ (Nat.log2 (num / den) + 1) * den ≤ 2 ^ 53 * 2 ^ scaleOf num den * den := by
      rw [← pow_add]
      exact Nat.mul_le_mul_right _ (Nat.pow_le_pow_right (by norm_num) (by omega))
    have := (h.lt_iff (2 ^ 54)).1 (by nlinarith)
    push_cast at this
    linarith
  · intro hq0
    have hne : num / den ≠ 0 := fun h0 => by simp [h0, hq] at hq0
    have hlow : 2 ^ Nat.log2 (num / den) * den ≤ num :=
      (Nat.le_div_iff_mul_le hden).1 (Nat.log2_self_le hne)
    have hsplit : Nat.log2 (num / den) = 52 + scaleOf num den := by omega
    rw [hsplit, pow_add] at hlow
    have := (h (2 ^ 53)).1.1 (by nlinarith)
    push_cast at this
    linarith

/-- A significand just below 2^53 carries out of its 53 bits exactly from half a unit below: the tie at 2^53 − 1/2 goes
to the even 2^53. -/
theorem NearestEven.carry_iff {m : Nat} {z : ℝ} (h : NearestEven m z) : 2 ^ 53 ≤ m ↔ 2 ^ 53 - 1 / 2 ≤ z := by
  obtain ⟨hhalf, heven⟩ := h
  obtain ⟨hl, hu⟩ := abs_le.1 hhalf
  constructor
  · intro hge
    have : ((2 ^ 53 : ℕ) : ℝ) ≤ m := by exact_mod_cast hge
    push_cast at this
    linarith
  · intro hz
    have hlow : ((2 ^ 53 - 1 : ℕ) : ℝ) ≤ m := by
      push_cast
      linarith
    obtain heq | hlt := (Nat.cast_le.1 hlow).eq_or_lt
    · have hm : (m : ℝ) = 2 ^ 53 - 1 := by
        rw [← heq]
        norm_num
      have := heven (by rw [abs_of_nonpos (by linarith)]; linarith)
      omega
    · omega

/-- Rounding passes the largest finite significand, 2^53 − 1 at scale 2045, exactly from half a unit above it. -/
theorem overflow_iff {q m : Nat} {z : ℝ} (h : NearestEven m z) (hz : z < 2 ^ 53) (hq : 0 < q → 2 ^ 52 ≤ z)
    (hm : m ≤ 2 ^ 53) (hm' : 0 < q → 2 ^ 52 ≤ m) :
    infinityBits ≤ q * 2 ^ 52 + m ↔ (2 ^ 53 - 1 / 2) * 2 ^ 2045 ≤ z * 2 ^ q := by
  have hinf : infinityBits = 2045 * 2 ^ 52 + 2 ^ 53 := by norm_num [infinityBits]
  have hp : (0 : ℝ) < 2 ^ 2045 := by positivity
  rw [hinf]
  obtain hlt | rfl | hgt := lt_trichotomy q 2045
  · refine iff_of_false (by omega) (not_le.2 ?_)
    have hle : (2 : ℝ) ^ q * 2 ≤ 2 ^ 2045 := by
      rw [← pow_succ]
      exact pow_le_pow_right₀ one_le_two hlt
    have hqp : (0 : ℝ) < 2 ^ q := by positivity
    generalize (2 : ℝ) ^ 2045 = p at *
    nlinarith
  · rw [mul_le_mul_iff_left₀ hp, ← h.carry_iff]
    omega
  · have hm52 := hm' (by omega)
    have hz52 := hq (by omega)
    refine iff_of_true (by omega) ?_
    have hle : (2 : ℝ) ^ 2045 * 2 ≤ 2 ^ q := by
      rw [← pow_succ]
      exact pow_le_pow_right₀ one_le_two hgt
    generalize (2 : ℝ) ^ 2045 = p at *
    nlinarith

theorem overflowBound_units : overflowBound * 2 ^ 1074 = (2 ^ 53 - 1 / 2) * 2 ^ 2045 := by
  have h1 : (2 : ℝ) ^ 1024 = 2 ^ 54 * 2 ^ 970 := by rw [← pow_add]
  have h2 : (2 : ℝ) ^ 2045 = 2 ^ 970 * 2 ^ 1074 * 2 := by rw [← pow_add, ← pow_succ]
  rw [overflowBound, h1, h2]
  generalize (2 : ℝ) ^ 970 = p
  generalize (2 : ℝ) ^ 1074 = r
  ring

/-- The factor a sign bit stands for. -/
def signFactor (neg : Bool) : ℤ := if neg then -1 else 1

theorem units_eq_signFactor_mul (w : W64) : units w = signFactor (signBit w) * magnitude w := by
  cases h : signBit w <;> simp [units, signFactor, h]

theorem signFactor_mul_signFactor (neg : Bool) : signFactor neg * signFactor neg = 1 := by cases neg <;> rfl

theorem signFactor_ne_zero (neg : Bool) : signFactor neg ≠ 0 := by cases neg <;> decide

/-- `magnitude_on_grid_or_lt`, seen from the side of zero that `neg` names. -/
theorem signFactor_mul_units_on_grid (neg : Bool) (c : W64) (q : Nat) :
    (∃ k : ℤ, signFactor neg * units c = k * 2 ^ q) ∨ (0 < q ∧ signFactor neg * units c < 2 ^ 52 * 2 ^ q) := by
  rw [units_eq_signFactor_mul]
  obtain ⟨k, hk⟩ | ⟨hq, hlt⟩ := magnitude_on_grid_or_lt c q
  · refine .inl ⟨signFactor neg * (signFactor (signBit c) * k), ?_⟩
    rw [hk]
    push_cast
    ring
  · have hcast : (magnitude c : ℤ) < 2 ^ 52 * 2 ^ q := by exact_mod_cast hlt
    refine .inr ⟨hq, lt_of_le_of_lt ?_ hcast⟩
    cases neg <;> cases signBit c <;> simp [signFactor]

/-- Distances between values are distances between significands of scale `q`, seen from the side of zero where `x` lies. -/
theorem abs_value_sub {neg : Bool} {x z : ℝ} {q : Nat} (hneg : neg = true ↔ x < 0)
    (hz : z * 2 ^ q = |x| * 2 ^ 1074) (c : W64) :
    |(value c : ℝ) - x| = |((signFactor neg * units c : ℤ) : ℝ) / 2 ^ q - z| * (2 ^ q / 2 ^ 1074) := by
  have hq : (0 : ℝ) < 2 ^ q := by positivity
  have hu : (0 : ℝ) < 2 ^ 1074 := by positivity
  have hx : x = signFactor neg * |x| := by
    cases neg
    · simp [signFactor, abs_of_nonneg (not_lt.1 (by simpa using hneg))]
    · simp [signFactor, abs_of_neg (hneg.1 rfl)]
  have hs : |((signFactor neg : ℤ) : ℝ)| = 1 := by cases neg <;> simp [signFactor]
  have hss : ((signFactor neg : ℤ) : ℝ) * signFactor neg = 1 := by exact_mod_cast signFactor_mul_signFactor neg
  have hfactor : (value c : ℝ) - x = signFactor neg * ((signFactor neg * units c / 2 ^ q - z) * (2 ^ q / 2 ^ 1074)) := by
    have hzx : |x| = z * 2 ^ q / 2 ^ 1074 := by rw [hz, mul_div_cancel_right₀ _ hu.ne']
    rw [value_real_eq, hx, hzx]
    generalize (2 : ℝ) ^ 1074 = p at *
    field_simp
    linear_combination (-(units c : ℝ)) * hss
  rw [hfactor, abs_mul, hs, one_mul, abs_mul, abs_of_pos (div_pos hq hu)]
  push_cast
  rfl

theorem NearestEven.significand_bounds {m q : Nat} {z : ℝ} (h : NearestEven m z) (hz : z < 2 ^ 53)
    (hq : 0 < q → 2 ^ 52 ≤ z) : m ≤ 2 ^ 53 ∧ (0 < q → 2 ^ 52 ≤ m) := by
  obtain ⟨hl, hu⟩ := abs_le.1 h.1
  constructor
  · have : (m : ℝ) < ((2 ^ 53 + 1 : ℕ) : ℝ) := by
      push_cast
      linarith
    exact Nat.lt_succ_iff.1 (Nat.cast_lt.1 this)
  · intro hq0
    have : ((2 ^ 52 : ℕ) : ℝ) < ((m + 1 : ℕ) : ℝ) := by
      push_cast
      linarith [hq hq0]
    exact Nat.lt_succ_iff.1 (Nat.cast_lt.1 this)

theorem isInf_pack_inf (neg : Bool) : isInf (pack neg infinityBits) = true := by cases neg <;> decide

theorem isFinite_pack {neg : Bool} {bits : Nat} (h : bits < infinityBits) : isFinite (pack neg bits) = true := by
  have hinf : infinityBits = 0x7FF * 2 ^ 52 := by norm_num [infinityBits]
  rw [isFinite_iff, pack_toNat (by omega)]
  cases neg <;> simp only [if_true, if_false, Bool.false_eq_true] <;> omega

/-- A packed significand nearest to `z` is a nearest pattern to the real that is `z` at scale `q`, and only an even one
ties. -/
theorem NearestEven.nearest_value {m q : Nat} {z x : ℝ} {neg : Bool} (h : NearestEven m z)
    (hneg : neg = true ↔ x < 0) (hscale : z * 2 ^ q = |x| * 2 ^ 1074) (hz : 0 < q → 2 ^ 52 ≤ z) (hm : m ≤ 2 ^ 53)
    (hm' : 0 < q → 2 ^ 52 ≤ m) (hbits : q * 2 ^ 52 + m < 2 ^ 63) (c : W64) :
    |(value (pack neg (q * 2 ^ 52 + m)) : ℝ) - x| ≤ |(value c : ℝ) - x| ∧
      (value c ≠ value (pack neg (q * 2 ^ 52 + m)) →
        |(value (pack neg (q * 2 ^ 52 + m)) : ℝ) - x| = |(value c : ℝ) - x| →
          fracField (pack neg (q * 2 ^ 52 + m)) % 2 = 0) := by
  have hr : signFactor neg * units (pack neg (q * 2 ^ 52 + m)) = m * 2 ^ q := by
    rw [units_eq_signFactor_mul, signBit_pack hbits, ← mul_assoc, signFactor_mul_signFactor, one_mul,
      magnitude_pack hm hm' hbits, Nat.cast_mul, Nat.cast_pow, Nat.cast_ofNat]
  have hr' : ((m * 2 ^ q : ℤ) : ℝ) / 2 ^ q = m := by
    push_cast
    exact mul_div_cancel_right₀ _ (by positivity)
  have hulp : (0 : ℝ) < 2 ^ q / 2 ^ 1074 := by positivity
  obtain ⟨hle, heven⟩ := h.le_pattern hz (signFactor_mul_units_on_grid neg c q)
  rw [abs_value_sub hneg hscale, abs_value_sub hneg hscale c, hr, hr', mul_le_mul_iff_left₀ hulp,
    mul_left_inj' hulp.ne', fracField_pack hbits]
  refine ⟨hle, fun hne htie => ?_⟩
  have hm2 := heven (fun hc => hne ?_) htie
  · omega
  · rw [← hr] at hc
    rw [value_eq_units, value_eq_units, mul_left_cancel₀ (signFactor_ne_zero neg) hc]

/-- `roundMag` rounds the real `x` once (R9), where `num / den` units stand for |x| at every boundary of rounding. -/
theorem roundsTo_pack_roundMag {num den : Nat} {neg : Bool} {x z : ℝ} (hneg : neg = true ↔ x < 0) (hden : 0 < den)
    (hlt : num / den < 2 ^ (2 ^ 13)) (hscale : z * 2 ^ scaleOf num den = |x| * 2 ^ 1074)
    (hside : SameSide num (den * 2 ^ scaleOf num den) z) : RoundsTo (pack neg (roundMag num den)) x := by
  obtain ⟨hz53, hz52⟩ := scaleOf_bounds hden hlt hside
  have hn := nearestEven_roundEven (by positivity) hside
  obtain ⟨hm53, hm52⟩ := hn.significand_bounds hz53 hz52
  have hover := overflow_iff hn hz53 hz52 hm53 hm52
  rw [hscale, ← overflowBound_units, mul_le_mul_iff_left₀ (by positivity)] at hover
  refine ⟨by rw [signBit_pack (roundMag_lt num den)]; exact hneg, fun hge => ?_, fun hfin => ?_⟩
  · rw [roundMag, min_eq_right (hover.2 hge)]
    exact isInf_pack_inf neg
  · have hbits := lt_of_not_ge (mt hover.1 (not_le.2 hfin))
    rw [roundMag, min_eq_left hbits.le]
    exact ⟨isFinite_pack hbits, fun c _ =>
      hn.nearest_value hneg hscale hz52 hm53 hm52 (hbits.trans (by norm_num [infinityBits])) c⟩

/-- The case of `roundsTo_pack_roundMag` in which `num / den` units are |x| itself. -/
theorem roundsTo_pack_of_eq {num den : Nat} {neg : Bool} {x : ℝ} (hneg : neg = true ↔ x < 0) (hden : 0 < den)
    (hlt : num / den < 2 ^ (2 ^ 13)) (hx : |x| * 2 ^ 1074 = num / den) :
    RoundsTo (pack neg (roundMag num den)) x := by
  have hd : 0 < den * 2 ^ scaleOf num den := by positivity
  refine roundsTo_pack_roundMag hneg hden hlt ?_ (sameSide_div hd)
  have hp : (0 : ℝ) < 2 ^ scaleOf num den := by positivity
  rw [hx]
  push_cast
  rw [← div_div, div_mul_cancel₀ _ hp.ne']

/-! ### Sums and differences (R9) -/

theorem value_add_eq (a b : W64) : value a + value b = ((units a + units b : ℤ) : ℚ) / 2 ^ 1074 := by
  rw [value_eq_units, value_eq_units, ← add_div, Int.cast_add]

theorem value_add_eq_zero_iff (a b : W64) : value a + value b = 0 ↔ units a + units b = 0 := by
  rw [value_add_eq, div_eq_zero_iff, or_iff_left unit_pos.ne', Int.cast_eq_zero]

theorem fadd_of_isFinite {a b : W64} (ha : isFinite a = true) (hb : isFinite b = true) :
    fadd a b = faddFinite a b := by
  simp only [fadd, isNaN_of_isFinite ha, isNaN_of_isFinite hb, isInf_of_isFinite ha, isInf_of_isFinite hb,
    Bool.or_self, Bool.false_eq_true, if_false]

theorem natAbs_units_add_lt {a b : W64} (ha : isFinite a = true) (hb : isFinite b = true) :
    (units a + units b).natAbs < 2 ^ (2 ^ 13) := by
  have hma := magnitude_lt_of_isFinite ha
  have hmb := magnitude_lt_of_isFinite hb
  rw [← natAbs_units] at hma hmb
  calc (units a + units b).natAbs ≤ (units a).natAbs + (units b).natAbs := Int.natAbs_add_le _ _
    _ < 2 ^ 2098 + 2 ^ 2098 := Nat.add_lt_add hma hmb
    _ = 2 ^ (2098 + 1) := by rw [← two_mul, ← pow_succ']
    _ ≤ 2 ^ (2 ^ 13) := pow_le_pow_right₀ one_le_two (by norm_num)

theorem fadd_roundsTo {a b : W64} (ha : isFinite a = true) (hb : isFinite b = true) (h : value a + value b ≠ 0) :
    RoundsTo (fadd a b) ((value a + value b : ℚ) : ℝ) := by
  have hu : (0 : ℝ) < 2 ^ 1074 := by positivity
  have hx : ((value a + value b : ℚ) : ℝ) = ((units a + units b : ℤ) : ℝ) / 2 ^ 1074 := by
    rw [value_add_eq]
    push_cast
    rfl
  rw [fadd_of_isFinite ha hb, faddFinite, if_neg (mt (value_add_eq_zero_iff a b).2 h), hx]
  refine roundsTo_pack_of_eq ?_ one_pos ?_ ?_
  · rw [decide_eq_true_iff, div_lt_iff₀ hu, zero_mul]
    exact_mod_cast Iff.rfl
  · rw [Nat.div_one]
    exact natAbs_units_add_lt ha hb
  · rw [abs_div, abs_of_pos hu, div_mul_cancel₀ _ hu.ne', Nat.cast_one, div_one, Nat.cast_natAbs, Int.cast_abs]

theorem fadd_of_value_add_eq_zero {a b : W64} (ha : isFinite a = true) (hb : isFinite b = true)
    (h : value a + value b = 0) :
    fadd a b = if signBit a ∧ signBit b then Config.negZero else Config.posZero := by
  rw [fadd_of_isFinite ha hb, faddFinite, if_pos ((value_add_eq_zero_iff a b).1 h)]
  simp only [Bool.and_eq_true]

/-- Settles O55: a difference is the sum with the second operand negated. -/
theorem sumsRoundOnce : Obligations.SumsRoundOnce := by
  intro a b ha hb
  have hb' : isFinite (fneg b) = true := by rwa [isFinite_fneg]
  have hsub : value a - value b = value a + value (fneg b) := by rw [value_fneg, sub_eq_add_neg]
  refine ⟨fadd_roundsTo ha hb, fadd_of_value_add_eq_zero ha hb, ?_, ?_⟩
  · rw [hsub]
    exact fadd_roundsTo ha hb'
  · intro h
    rw [hsub] at h
    simpa [fsub] using fadd_of_value_add_eq_zero ha hb' h

/-! ### Products and quotients (R9) -/

/-- The sign of a product or quotient is the exclusive or of the operands' signs. -/
theorem signBit_bne_iff {a b : W64} (ha : value a ≠ 0) (hb : value b ≠ 0) :
    (signBit a != signBit b) = true ↔ value a * value b < 0 := by
  rw [mul_neg_iff, ← signBit_iff_value_neg ha, ← signBit_iff_value_neg hb, ← signBit_eq_false_iff_value_pos ha,
    ← signBit_eq_false_iff_value_pos hb]
  cases signBit a <;> cases signBit b <;> simp

theorem pack_bne_zero (a b : W64) :
    pack (signBit a != signBit b) 0 = if signBit a = signBit b then Config.posZero else Config.negZero := by
  cases signBit a <;> cases signBit b <;> decide

theorem fmul_of_isFinite {a b : W64} (ha : isFinite a = true) (hb : isFinite b = true) :
    fmul a b = pack (signBit a != signBit b) (roundMag (magnitude a * magnitude b) (2 ^ 1074)) := by
  simp only [fmul, isNaN_of_isFinite ha, isNaN_of_isFinite hb, isInf_of_isFinite ha, isInf_of_isFinite hb,
    Bool.or_self, Bool.false_eq_true, if_false]

theorem fmul_roundsTo {a b : W64} (ha : isFinite a = true) (hb : isFinite b = true) (h : value a * value b ≠ 0) :
    RoundsTo (fmul a b) ((value a * value b : ℚ) : ℝ) := by
  obtain ⟨hva, hvb⟩ := mul_ne_zero_iff.1 h
  rw [fmul_of_isFinite ha hb]
  refine roundsTo_pack_of_eq ?_ (by positivity) ?_ ?_
  · rw [signBit_bne_iff hva hvb]
    exact_mod_cast Iff.rfl
  · calc magnitude a * magnitude b / 2 ^ 1074 ≤ magnitude a * magnitude b := Nat.div_le_self _ _
      _ < 2 ^ 2098 * 2 ^ 2098 := Nat.mul_lt_mul'' (magnitude_lt_of_isFinite ha) (magnitude_lt_of_isFinite hb)
      _ = 2 ^ (2098 + 2098) := (pow_add ..).symm
      _ ≤ 2 ^ (2 ^ 13) := pow_le_pow_right₀ one_le_two (by norm_num)
  · have hu : (0 : ℝ) < 2 ^ 1074 := by positivity
    rw [Rat.cast_mul, abs_mul, Nat.cast_mul, ← abs_value_mul_unit a, ← abs_value_mul_unit b, Nat.cast_pow,
      Nat.cast_ofNat, ← mul_assoc (_ * _), mul_div_cancel_right₀ _ hu.ne', mul_right_comm]

/-- Settles O56: the product of the magnitudes, over one unit, is the exact product in units. -/
theorem productsRoundOnce : Obligations.ProductsRoundOnce := by
  intro a b ha hb
  refine ⟨fmul_roundsTo ha hb, fun h => ?_⟩
  have hm : magnitude a * magnitude b = 0 := by
    obtain h | h := mul_eq_zero.1 h <;> rw [magnitude_of_isZero ((value_eq_zero_iff _).1 h)] <;> simp
  rw [fmul_of_isFinite ha hb, hm, roundMag_zero, pack_bne_zero]

theorem magnitude_mul_unit_lt {w : W64} (h : isFinite w = true) : magnitude w * 2 ^ 1074 < 2 ^ (2 ^ 13) := by
  calc magnitude w * 2 ^ 1074 < 2 ^ 2098 * 2 ^ 1074 :=
        Nat.mul_lt_mul_of_pos_right (magnitude_lt_of_isFinite h) (by positivity)
    _ = 2 ^ (2098 + 1074) := (pow_add ..).symm
    _ ≤ 2 ^ (2 ^ 13) := pow_le_pow_right₀ one_le_two (by norm_num)

theorem fdiv_of_isFinite {a b : W64} (ha : isFinite a = true) (hb : isFinite b = true) (hz : value b ≠ 0) :
    fdiv a b = pack (signBit a != signBit b) (roundMag (magnitude a * 2 ^ 1074) (magnitude b)) := by
  have hz' : isZero b = false := by rwa [ne_eq, value_eq_zero_iff, Bool.not_eq_true] at hz
  simp only [fdiv, isNaN_of_isFinite ha, isNaN_of_isFinite hb, isInf_of_isFinite ha, isInf_of_isFinite hb, hz',
    Bool.or_self, Bool.false_eq_true, if_false]

theorem fdiv_roundsTo {a b : W64} (ha : isFinite a = true) (hb : isFinite b = true) (hvb : value b ≠ 0)
    (hva : value a ≠ 0) : RoundsTo (fdiv a b) ((value a / value b : ℚ) : ℝ) := by
  rw [fdiv_of_isFinite ha hb hvb]
  refine roundsTo_pack_of_eq ?_ (magnitude_pos hvb) ?_ ?_
  · rw [signBit_bne_iff hva hvb, mul_neg_iff, ← div_neg_iff]
    exact_mod_cast Iff.rfl
  · exact (Nat.div_le_self _ _).trans_lt (magnitude_mul_unit_lt ha)
  · have hu : (0 : ℝ) < 2 ^ 1074 := by positivity
    rw [Rat.cast_div, abs_div, Nat.cast_mul, ← abs_value_mul_unit a, ← abs_value_mul_unit b, Nat.cast_pow,
      Nat.cast_ofNat, mul_div_mul_right _ _ hu.ne', div_mul_eq_mul_div]

/-- Settles O57: the dividend's magnitude, scaled by one unit, over the divisor's is the exact quotient in units. -/
theorem quotientsRoundOnce : Obligations.QuotientsRoundOnce := by
  intro a b ha hb hvb
  refine ⟨fdiv_roundsTo ha hb hvb, fun h => ?_⟩
  rw [fdiv_of_isFinite ha hb hvb, magnitude_of_isZero ((value_eq_zero_iff a).1 h), zero_mul, roundMag_zero,
    pack_bne_zero]

/-! ### Roots (R9) -/

/-- The model's Newton iteration is the library's, given fuel for every decrease of the guess. -/
theorem isqrtFrom_eq_iter (fuel n x : Nat) (h : x ≤ fuel) : isqrtFrom fuel n x = Nat.sqrt.iter n x := by
  induction fuel generalizing x with
  | zero =>
    obtain rfl : x = 0 := by omega
    simp [isqrtFrom, Nat.sqrt.iter]
  | succ fuel ih =>
    rw [isqrtFrom, Nat.sqrt.iter]
    split
    · simp [ih _ (by omega : (x + n / x) / 2 ≤ fuel)]
    · simp

theorem isqrt_eq_sqrt {n : Nat} (h : n < 2 ^ (2 ^ 13)) : isqrt n = Nat.sqrt n := by
  rw [isqrt, Nat.sqrt, isqrtFrom_eq_iter _ _ _ le_rfl, floorLog2_eq h, Nat.one_shiftLeft]

theorem stickyRoot_le_iff {n : Nat} (h : n < 2 ^ (2 ^ 13)) (j : Nat) : stickyRoot n ≤ 2 * j ↔ n ≤ j * j := by
  rw [stickyRoot, isqrt_eq_sqrt h]
  have hle := Nat.sqrt_le n
  split
  · next he => rw [add_zero, Nat.mul_le_mul_left_iff two_pos, ← Nat.mul_self_le_mul_self_iff, he]
  · next hne =>
    have hlt : Nat.sqrt n * Nat.sqrt n < n := by omega
    rw [show 2 * Nat.sqrt n + 1 ≤ 2 * j ↔ Nat.sqrt n < j by omega]
    refine ⟨fun hj => (Nat.sqrt_lt.1 hj).le, fun hj => ?_⟩
    exact Nat.mul_self_lt_mul_self_iff.1 (hlt.trans_le hj)

theorem le_stickyRoot_iff {n : Nat} (h : n < 2 ^ (2 ^ 13)) (j : Nat) : 2 * j ≤ stickyRoot n ↔ j * j ≤ n := by
  rw [stickyRoot, isqrt_eq_sqrt h, ← Nat.le_sqrt]
  split <;> omega

/-- The sticky root lies where the root lies, at every boundary of a scale above the unit's. -/
theorem sameSide_stickyRoot {n q : Nat} (h : n < 2 ^ (2 ^ 13)) (hq : 0 < q) :
    SameSide (stickyRoot n) (2 * 2 ^ q) (√n / 2 ^ q) := by
  obtain ⟨p, rfl⟩ : ∃ p, q = p + 1 := ⟨q - 1, by omega⟩
  intro k
  have hp : (0 : ℝ) < 2 ^ p := by positivity
  have hz : 2 * (√(n : ℝ) / 2 ^ (p + 1)) = √n / 2 ^ p := by rw [pow_succ]; field_simp
  have hd : k * (2 * 2 ^ (p + 1)) = 2 * (2 * (k * 2 ^ p)) := by ring
  have hj : (k : ℝ) * 2 ^ p = ((k * 2 ^ p : ℕ) : ℝ) := by push_cast; rfl
  rw [hz, hd, le_div_iff₀ hp, div_le_iff₀ hp, hj, Nat.mul_le_mul_left_iff two_pos, Nat.mul_le_mul_left_iff two_pos,
    le_stickyRoot_iff h, stickyRoot_le_iff h,
    Real.le_sqrt (Nat.cast_nonneg _) (Nat.cast_nonneg _), Real.sqrt_le_left (Nat.cast_nonneg _)]
  constructor <;> rw [sq] <;> exact_mod_cast Iff.rfl

theorem stickyRoot_div_two {n : Nat} (h : n < 2 ^ (2 ^ 13)) : stickyRoot n / 2 = Nat.sqrt n := by
  rw [stickyRoot, isqrt_eq_sqrt h]
  split <;> omega

/-- A root has more than 53 bits before the point, so the boundaries of the unit itself never matter. -/
theorem scaleOf_stickyRoot_pos {n : Nat} (h : n < 2 ^ (2 ^ 13)) (hn : 2 ^ 106 ≤ n) :
    0 < scaleOf (stickyRoot n) 2 := by
  have hle : 2 ^ 53 ≤ Nat.sqrt n := Nat.le_sqrt.2 (by omega)
  have hlog : 53 ≤ Nat.log2 (Nat.sqrt n) := (Nat.le_log2 (by omega)).2 hle
  rw [scaleOf, stickyRoot_div_two h, floorLog2_eq ((Nat.sqrt_le_self n).trans_lt h)]
  omega

theorem fsqrt_of_pos {a : W64} (ha : isFinite a = true) (h : 0 < value a) :
    fsqrt a = pack false (roundMag (stickyRoot (magnitude a * 2 ^ 1074)) 2) := by
  have hz : isZero a = false := by
    rw [← Bool.not_eq_true, ← value_eq_zero_iff]
    exact h.ne'
  have hs := (signBit_eq_false_iff_value_pos h.ne').2 h
  simp only [fsqrt, isNaN_of_isFinite ha, isInf_of_isFinite ha, hz, hs, Bool.false_eq_true, if_false]

theorem fsqrt_roundsTo {a : W64} (ha : isFinite a = true) (h : 0 < value a) :
    RoundsTo (fsqrt a) (√((value a : ℚ) : ℝ)) := by
  have hu : (0 : ℝ) < 2 ^ 1074 := by positivity
  have hlt := magnitude_mul_unit_lt ha
  have hge : 2 ^ 106 ≤ magnitude a * 2 ^ 1074 :=
    calc (2 : ℕ) ^ 106 ≤ 2 ^ 1074 := pow_le_pow_right₀ one_le_two (by norm_num)
      _ ≤ magnitude a * 2 ^ 1074 := Nat.le_mul_of_pos_left _ (magnitude_pos h.ne')
  rw [fsqrt_of_pos ha h]
  refine roundsTo_pack_roundMag (by simp [Real.sqrt_nonneg]) two_pos ?_ ?_
    (sameSide_stickyRoot hlt (scaleOf_stickyRoot_pos hlt hge))
  · rw [stickyRoot_div_two hlt]
    exact (Nat.sqrt_le_self _).trans_lt hlt
  · rw [div_mul_cancel₀ _ (by positivity), abs_of_nonneg (Real.sqrt_nonneg _), Nat.cast_mul, ← abs_value_mul_unit,
      abs_of_pos (by exact_mod_cast h), mul_assoc, Real.sqrt_mul (by exact_mod_cast h.le), Nat.cast_pow,
      Nat.cast_ofNat, Real.sqrt_mul_self hu.le]

/-- Settles O58: the sticky root stands for the real root at every rounding boundary. -/
theorem rootsRoundOnce : Obligations.RootsRoundOnce := by
  refine fun a ha => ⟨fsqrt_roundsTo ha, fun h => ?_⟩
  have hz := (value_eq_zero_iff a).1 h
  simp [fsqrt, isNaN_of_isFinite ha, hz]

/-! ### Comparison (R10) -/

theorem flt_of_not_isNaN {a b : W64} (ha : isNaN a = false) (hb : isNaN b = false) :
    flt a b = decide (units a < units b) := by
  simp [flt, ha, hb]

theorem units_posInf : units Config.posInf = 2 ^ 2098 := by
  have hs : signBit Config.posInf = false := by decide
  have he : expField Config.posInf = 2046 + 1 := by decide
  have hf : fracField Config.posInf = 0 := by decide
  have hm : magnitude Config.posInf = 2 ^ 2098 := by rw [magnitude_normal he, hf, add_zero, ← pow_add]
  rw [units, if_neg (by rw [hs]; exact Bool.false_ne_true), hm, Nat.cast_pow, Nat.cast_ofNat]

theorem units_negInf : units Config.negInf = -2 ^ 2098 := by
  rw [show Config.negInf = fneg Config.posInf by decide, units_fneg, units_posInf]

theorem abs_units_lt_of_isFinite {w : W64} (h : isFinite w = true) : |units w| < 2 ^ 2098 := by
  rw [Int.abs_eq_natAbs, natAbs_units]
  exact_mod_cast magnitude_lt_of_isFinite h

/-- The infinities lie beyond every finite value on their side. -/
theorem flt_infinities {a : W64} (ha : isFinite a = true) :
    flt a Config.posInf = true ∧ flt Config.posInf a = false ∧ flt Config.negInf a = true ∧
      flt a Config.negInf = false := by
  have hn := isNaN_of_isFinite ha
  have hp : isNaN Config.posInf = false := by decide
  have hm : isNaN Config.negInf = false := by decide
  obtain ⟨hlow, hhigh⟩ := abs_lt.1 (abs_units_lt_of_isFinite ha)
  rw [flt_of_not_isNaN hn hp, flt_of_not_isNaN hp hn, flt_of_not_isNaN hm hn, flt_of_not_isNaN hn hm, units_posInf,
    units_negInf]
  exact ⟨decide_eq_true hhigh, decide_eq_false hhigh.not_gt, decide_eq_true hlow, decide_eq_false hlow.not_gt⟩

theorem flt_negInf_posInf : flt Config.negInf Config.posInf = true ∧ flt Config.posInf Config.negInf = false := by
  have hp : isNaN Config.posInf = false := by decide
  have hm : isNaN Config.negInf = false := by decide
  have hpos : (0 : ℤ) < 2 ^ 2098 := by positivity
  have hlt : (-2 ^ 2098 : ℤ) < 2 ^ 2098 := (neg_neg_of_pos hpos).trans hpos
  rw [flt_of_not_isNaN hm hp, flt_of_not_isNaN hp hm, units_posInf, units_negInf]
  exact ⟨decide_eq_true hlt, decide_eq_false hlt.not_gt⟩

theorem flt_of_isNaN {a b : W64} (h : isNaN a = true ∨ isNaN b = true) : flt a b = false := by
  obtain h | h := h <;> simp [flt, h]

theorem flt_iff_value_lt {a b : W64} (ha : isFinite a = true) (hb : isFinite b = true) :
    flt a b = true ↔ value a < value b := by
  rw [flt_of_not_isNaN (isNaN_of_isFinite ha) (isNaN_of_isFinite hb), decide_eq_true_iff, value_lt_iff]

/-- A normal pattern with sign bit 0 and exponent `k` above the bias, as R8 writes its value. -/
theorem value_of_fields {w : W64} {k f : Nat} (hs : signBit w = false) (he : expField w = 1023 + k)
    (hf : fracField w = f) : value w = 2 ^ k * (1 + (f : ℚ) / 2 ^ 52) := by
  have hexp : ((1023 + k : ℕ) : ℤ) - 1023 = k := by push_cast; ring
  rw [value, hs, he, hf, hexp]
  simp

/-- Settles O59: `flt` compares units, which order as values do and place the infinities outside. -/
theorem comparisonRule : Obligations.ComparisonRule := by
  refine ⟨fun a b => flt_iff_value_lt, fun a b => flt_of_isNaN, fun a => flt_infinities, flt_negInf_posInf.1,
    flt_negInf_posInf.2, flt_irrefl _, flt_irrefl _, fun a b => rfl, ?_, ?_, ?_, ?_, ?_, ?_, ?_⟩
  · exact (value_eq_zero_iff _).2 (by decide)
  · rw [value_of_fields (k := 0) (f := 0) (by decide) (by decide) (by decide)]
    norm_num
  · rw [value_of_fields (k := 1) (f := 0) (by decide) (by decide) (by decide)]
    norm_num
  · rw [value_of_fields (k := 2) (f := 2 ^ 50) (by decide) (by decide) (by decide)]
    norm_num
  · rw [value_of_fields (k := 3) (f := 0xE * 2 ^ 48) (by decide) (by decide) (by decide)]
    norm_num
  · rw [value_of_fields (k := 5) (f := 0x9 * 2 ^ 48) (by decide) (by decide) (by decide)]
    norm_num
  · rw [value_of_fields (k := 6) (f := 0x9 * 2 ^ 48) (by decide) (by decide) (by decide)]
    norm_num

end Sys2Proof.Arithmetic
end

section
/-! PROOFS. The state as a whole: what reset leaves (10_state.md R41), what a step can do to it, what it must be for INIT
to pass (40_configuration.md R114), and the invariant of R39. `exec_completes` and `step_cases` say once what a command
and a step can do; every statement about all of them goes through these two. -/

namespace Sys2Proof.StateRules

open Sys2Proof Sys2Proof.Machine Sys2Proof.Safety

/-! ### What a command and a step can do -/

/-- How a command can end: `Completes s i t` says that `t` is one of the states `i` may leave from `s`. -/
inductive Completes (s : State) : Instr → State → Prop where
  /-- An OK response alone: NOP and the reads. -/
  | answered (i : Instr) (data : W64) : Completes s i (s.respond statusOk data)
  /-- An error that writes nothing but its flag bit (60_exceptions.md R229). -/
  | refused (i : Instr) (e : ErrorCode) : Completes s i (s.raise e)
  /-- RESET. -/
  | reset : Completes s .reset (s.toReset.respond statusOk 0#64)
  /-- WRCFG at an index of the table. -/
  | wrcfg (k : Fin 264) (data : W64) (hm : s.mode = .unconfigured) :
      Completes s (.wrcfg k data) ((s.writeCfg k data).respond statusOk 0#64)
  /-- INIT with a table that passes. -/
  | init (hm : s.mode = .unconfigured) (hc : s.cfgValid = true) :
      Completes s .init (s.createInstance.respond statusOk 0#64)
  /-- LDS of one of the three components. -/
  | lds (k : Fin 3) (data : W64) (hm : s.mode ≠ .unconfigured) :
      Completes s (.lds k data) ((s.stage k data).respond statusOk 0#64)
  /-- UPDATE that drops its sample. -/
  | dropped (e : ErrorCode) (hm : s.mode ≠ .unconfigured) : Completes s .update (s.unstage.raise e)
  /-- UPDATE that commits its tick. -/
  | ticked (h : TickAccepted s) : Completes s .update (s.unstage.commit s.tick).respondClass

theorem publish_completes {s t : State} {inRange : Bool} {value : W64} (i : Instr)
    (h : publish s inRange value = .next t) : Completes s i t := by
  obtain ⟨-, e⟩ | ⟨-, -, e⟩ | ⟨-, -, e⟩ := publish_eq s inRange value <;> rw [e] at h <;> cases h
  · exact .refused i _
  · exact .refused i _
  · exact .answered i _

theorem beforeInstance_completes {s t : State} {k : Result} (i : Instr) (h : beforeInstance s k = .next t)
    (hk : s.mode = .unconfigured → k = .next t → Completes s i t) : Completes s i t := by
  obtain ⟨hm, e⟩ | ⟨-, e⟩ := beforeInstance_eq s k <;> rw [e] at h
  · exact hk hm h
  · cases h
    exact .refused i _

theorem inInstance_completes {s t : State} {k : Result} (i : Instr) (h : inInstance s k = .next t)
    (hk : s.mode ≠ .unconfigured → k = .next t → Completes s i t) : Completes s i t := by
  obtain ⟨-, e⟩ | ⟨hm, e⟩ := inInstance_eq s k <;> rw [e] at h
  · cases h
    exact .refused i _
  · exact hk hm h

theorem sampleReady_iff (s : State) : s.sampleReady = true ↔ s.svalid = 0b111#3 ∧ s.sx.allFinite = true := by
  simp only [State.sampleReady, Bool.and_eq_true, beq_iff_eq]

theorem execUpdate_completes {s t : State} (h : execUpdate s = .next t) : Completes s .update t := by
  obtain ⟨-, e⟩ | ⟨hm, -, e⟩ | ⟨hm, -, -, e⟩ | ⟨hm, hr, ht, e⟩ := execUpdate_eq s <;> rw [e] at h <;> cases h
  · exact .refused _ _
  · exact .dropped _ hm
  · exact .dropped _ hm
  · exact .ticked ⟨⟨hm, (sampleReady_iff s).1 hr⟩, ht⟩

/-- Whatever a command answers, it is one of the ways a command can end. -/
theorem exec_completes {i : Instr} {s t : State} (h : exec i s = .next t) : Completes s i t := by
  cases i with
  | nop | rdstat => cases h; exact .answered _ _
  | reset => cases h; exact .reset
  | wrcfg idx data =>
    refine beforeInstance_completes _ h fun hm hk => ?_
    split at hk <;> cases hk
    · next hlt => exact .wrcfg ⟨idx, hlt⟩ data hm
    · exact .refused _ _
  | init =>
    refine beforeInstance_completes _ h fun hm hk => ?_
    split at hk <;> cases hk
    · next hc => exact .init hm hc
    · exact .refused _ _
  | lds idx data =>
    refine inInstance_completes _ h fun hm hk => ?_
    split at hk <;> cases hk
    · next hlt => exact .lds ⟨idx, hlt⟩ data hm
    · exact .refused _ _
  | update => exact execUpdate_completes h
  | rdsva | rdacc | rdvel | rdwin => exact publish_completes _ h
  | rdmax | rdclass =>
    refine inInstance_completes _ h fun _ hk => ?_
    cases hk
    exact .answered _ _

/-- A step idles, takes a hardware reset, refuses a packet that is no command, or runs one (20_memory.md R66). -/
theorem step_cases {s t : State} (h : step s = .next t) :
    (s.pending = [] ∧ t = s) ∨
    (∃ rest, s.pending = .hardwareReset :: rest ∧ t = (s.accept rest).toReset) ∨
    (∃ p rest why, s.pending = .command p :: rest ∧ decode p = .error why ∧
      t = (s.accept rest).raise .illegalCommand) ∨
    ∃ p rest i, s.pending = .command p :: rest ∧ decode p = .ok i ∧ exec i (s.accept rest) = .next t := by
  unfold step fetch at h
  cases hp : s.pending with
  | nil =>
    rw [hp] at h
    cases h
    exact .inl ⟨rfl, rfl⟩
  | cons e rest =>
    rw [hp] at h
    cases e with
    | hardwareReset =>
      cases h
      exact .inr (.inl ⟨rest, rfl, rfl⟩)
    | command p =>
      cases hd : decode p with
      | error why =>
        simp only [fetchPacket, hd] at h
        cases h
        exact .inr (.inr (.inl ⟨p, rest, why, rfl, hd, rfl⟩))
      | ok i =>
        simp only [fetchPacket, hd] at h
        exact .inr (.inr (.inr ⟨p, rest, i, rfl, hd, h⟩))

/-! ### The configuration table (R114) -/

theorem wcap_eq (s : State) : s.wcap = (s.cfg.get 7).toNat % 2 ^ 32 := by
  simp [State.wcap, State.wcapField, BitVec.extractLsb'_toNat]

/-- The upper half of entry 7 is bits 63:32. -/
theorem upperHalf_eq_zero_iff (w : W64) : w.extractLsb' 32 32 = 0#32 ↔ w.toNat / 2 ^ 32 = 0 := by
  have := w.isLt
  rw [← BitVec.toNat_inj, BitVec.extractLsb'_toNat, Nat.shiftRight_eq_div_pow, BitVec.toNat_ofNat]
  omega

theorem wcapValid_iff (s : State) :
    s.wcapValid = true ↔ (s.cfg.get 7).toNat / 2 ^ 32 = 0 ∧ 1 ≤ s.wcap ∧ s.wcap ≤ s.wcapMax := by
  simp only [State.wcapValid, Bool.and_eq_true, beq_iff_eq, decide_eq_true_iff, upperHalf_eq_zero_iff, and_assoc]

theorem all_eraseIdx_iff {α : Type} {n : Nat} (t : Table α n) (k : Fin n) (p : α → Bool) :
    (t.entries.eraseIdx k.val).all p = true ↔ ∀ i, i ≠ k → p (t.get i) = true := by
  simp only [List.all_eq_true, List.mem_eraseIdx_iff_getElem]
  constructor
  · exact fun h i hi => h _ ⟨i.val, t.length_eq.symm ▸ i.isLt, fun e => hi (Fin.ext e), rfl⟩
  · rintro h _ ⟨i, hi, hne, rfl⟩
    exact h ⟨i, t.length_eq ▸ hi⟩ fun e => hne (congrArg Fin.val e)

theorem coefficientsFinite_iff (s : State) :
    s.coefficientsFinite = true ↔ ∀ i : Fin 264, i ≠ 7 → isFinite (s.cfg.get i) = true :=
  all_eraseIdx_iff s.cfg 7 isFinite

/-- A finite pattern is above +0.0 exactly when it is not a zero and its sign bit is 0. -/
theorem flt_posZero_iff {w : W64} (h : isFinite w = true) :
    flt Config.posZero w = true ↔ 0 < w.toNat ∧ w.toNat < 2 ^ 63 := by
  have hz : isZero Config.posZero = true := by decide
  rw [Arithmetic.flt_iff_value_lt (isFinite_of_isZero hz) h, Arithmetic.value_lt_iff, units_of_isZero hz, units]
  have hm : magnitude w = 0 ↔ w.toNat % 2 ^ 63 = 0 := (magnitude_eq_zero_iff w).trans (isZero_iff w)
  have hlt := w.isLt
  split
  · next hs =>
    have hge : 2 ^ 63 ≤ w.toNat := of_decide_eq_true hs
    exact iff_of_false (by omega) (by omega)
  · next hs =>
    have hpos : ¬ 2 ^ 63 ≤ w.toNat := fun hge => hs (decide_eq_true hge)
    omega

/-- `CfgValid()` is the five conditions of R114. -/
theorem cfgValid_iff (s : State) : s.cfgValid = true ↔ TablePasses s := by
  have hexp (w : W64) : isFinite w = true ↔ w.toNat / 2 ^ 52 % 2 ^ 11 ≠ 0x7FF := bne_iff_ne
  have hw : s.allWritten = true ↔ ∀ i, s.cw.get i = true := Table.all_entries s.cw id
  simp only [State.cfgValid, Bool.and_eq_true, hw, coefficientsFinite_iff, wcapValid_iff, beq_iff_eq, and_assoc,
    TablePasses, ← hexp, wcap_eq]
  refine and_congr_right fun _ => and_congr_right fun hf => and_congr_right fun _ => ?_
  rw [State.dt, flt_posZero_iff (hf 6 (by decide)), and_assoc]

/-! ### Reset values -/

theorem atResetValues_toReset (s : State) : AtResetValues s.toReset :=
  ⟨rfl, rfl, rfl, rfl, fun i => Table.get_fill false i, rfl, rfl, rfl, rfl, rfl, rfl, rfl, rfl, rfl, rfl, rfl, rfl, rfl⟩

/-- Settles O9: reset leaves what it leaves from any other state. -/
theorem resetStateHoldsResetValues : Obligations.ResetStateHoldsResetValues := by
  refine ⟨atResetValues_toReset State.reset, fun i => rfl, fun j r c => ?_, fun j => Table.get_fill _ j⟩
  have : State.reset.osc.get j = Mat2.zero := Table.get_fill _ j
  rw [this]
  fin_cases r <;> fin_cases c <;> rfl

/-! ### What the invariant says of zeros, of the window and of a tick -/

theorem nonNegative_iff_isFinite (w : W64) : NonNegative w ↔ isFinite w = true ∧ signBit w = false :=
  decide_eq_true_iff.trans (nonNegative_iff w)

theorem nonNegative_posZero : NonNegative Config.posZero := by decide

theorem valuesFinite_of_runningZero {s : State} (h : RunningZero s) : ValuesFinite s := by
  obtain ⟨href, hx0, hx1, hx2, hy0, hy1, hv, hosc, -⟩ := h
  have hz : Vec3.zero.allFinite = true := by decide
  simp only [ValuesFinite, href, hx0, hx1, hx2, hy0, hy1, hv, hosc, hz, true_and]
  intro o ho
  obtain ⟨j, rfl⟩ := Table.mem_entries.1 ho
  rw [Table.get_fill]
  decide

theorem spectrumNonNegative_of_runningZero {s : State} (h : RunningZero s) : SpectrumNonNegative s := by
  obtain ⟨-, -, -, -, -, -, -, -, hsva, hwin, -, hmax, -⟩ := h
  refine ⟨fun j => ?_, ?_, fun c hc => ?_⟩
  · rw [hsva, Table.get_fill]
    exact nonNegative_posZero
  · rw [hmax]
    exact nonNegative_posZero
  · rw [hwin] at hc
    cases hc

/-- An index reads as +0.0 or as the cell listed for it. -/
theorem read_eq_or_mem (m : Memory) (i : Nat) : m.read i = Config.posZero ∨ (i, m.read i) ∈ m := by
  induction m with
  | nil => exact .inl rfl
  | cons c rest ih =>
    obtain ⟨j, x⟩ := c
    rw [Memory.read]
    split
    · next hij => exact .inr (hij ▸ List.mem_cons_self)
    · exact ih.imp_right (List.mem_cons_of_mem _)

theorem read_nonNegative {m : Memory} (h : ∀ c ∈ m, NonNegative c.2) (i : Nat) : NonNegative (m.read i) := by
  obtain hz | hmem := read_eq_or_mem m i
  · rw [hz]
    exact nonNegative_posZero
  · exact h _ hmem

/-- The maximum of the window is one of its entries (43_classifier.md R167). -/
theorem windowMax_mem (win : Memory) {wcap : Nat} (h : 0 < wcap) : ∃ i < wcap, windowMax win wcap = win.read i := by
  obtain he | ⟨i, hi, he⟩ := foldl_fmax_mem win.read (List.range' 1 (wcap - 1)) (win.read 0)
  · exact ⟨0, h, he⟩
  · obtain ⟨-, hlt⟩ := List.mem_range'_1.1 hi
    exact ⟨i, by omega, he⟩

/-- The maximum of a tick is one of its spectrum values (R165). -/
theorem tickMax_mem (sva : Table W64 32) : ∃ j, tickMax sva = sva.get j := by
  obtain he | ⟨w, hw, he⟩ := foldl_fmax_mem id sva.entries.tail (sva.get 0)
  · exact ⟨0, he⟩
  · obtain ⟨j, hj⟩ := Table.mem_entries.1 (List.mem_of_mem_tail hw)
    exact ⟨j, he.trans hj.symm⟩

theorem windowMax_nil (wcap : Nat) : windowMax [] wcap = Config.posZero := by
  obtain he | ⟨i, -, he⟩ := foldl_fmax_mem (Memory.read []) (List.range' 1 (wcap - 1)) Config.posZero <;> exact he

theorem classify_posZero : classify Config.posZero = 0#3 :=
  if_pos ((flt_posZero_iff (by decide)).2 (by decide))

/-- A finite norm is not negative: a root of a sum of squares (42_oscillator_bank.md R153). -/
theorem norm2_nonNegative {p q : W64} (h : isFinite (norm2 p q) = true) : NonNegative (norm2 p q) := by
  have hsum := isFinite_fsqrt h
  obtain ⟨hp, hq⟩ := isFinite_fadd hsum
  exact (nonNegative_iff_isFinite _).2
    ⟨h, signBit_fsqrt h (signBit_fadd hsum (signBit_fmul_self hp) (signBit_fmul_self hq))⟩

theorem tickSva_nonNegative {s : State} (h : s.tick.allFinite = true) (j : Fin 32) : NonNegative (s.tickSva.get j) := by
  obtain ⟨-, -, -, -, hsva⟩ := (Tick.allFinite_iff s.tick).1 h
  have hj : isFinite (s.tickSva.get j) = true := hsva j
  rw [State.tickSva, bankSpectrum, Table.get_ofFn] at hj ⊢
  exact norm2_nonNegative hj

/-- What a table that passes says of the capacity (R27, R114). -/
theorem wcap_bounds {s : State} (h : s.cfgValid = true) : 1 ≤ s.wcap ∧ s.wcap ≤ s.wcapMax := by
  obtain ⟨-, -, -, -, -, hw⟩ := (cfgValid_iff s).1 h
  rwa [wcap_eq]

/-- The pointer stays in the window (R166). -/
theorem nextPointer_lt {wptr : W16} {wcap : Nat} (h : wptr.toNat < wcap) (hw : wcap ≤ 65535) :
    (nextPointer wptr wcap).toNat < wcap := by
  unfold nextPointer
  split
  · exact Nat.zero_lt_of_lt h
  · rw [BitVec.toNat_add, BitVec.toNat_ofNat]
    omega

theorem flagsLegal_setErrFlag {flags : BitVec 8} (h : flags &&& 0x81#8 = 0#8) (e : ErrorCode) :
    setErrFlag flags e &&& 0x81#8 = 0#8 := by
  have hbit : (1#8 <<< e.code.toNat) &&& 0x81#8 = 0#8 := by cases e <;> decide
  rw [setErrFlag, BitVec.and_or_distrib_right, h, hbit]
  rfl

/-! ### The invariant (R39), update by update -/

theorem inv_of_atResetValues {s : State} (h : AtResetValues s) (hw : Config.wcapMaxLegal s.wcapMax = true) : Inv s := by
  obtain ⟨hm, hflags, hvalid, -, -, hz⟩ := h
  have ⟨_, _, _, _, _, _, _, _, _, hwin, _⟩ := hz
  refine ⟨fun hne => absurd hm hne, valuesFinite_of_runningZero hz, spectrumNonNegative_of_runningZero hz,
    fun hne => absurd hm hne, fun _ => hz, fun _ => hvalid, ?_, ?_⟩
  · rw [FlagsLegal, hflags]
    rfl
  · rw [StoreLegal, hwin]
    exact ⟨rfl, fun c hc => (nomatch hc), hw⟩

theorem inv_toReset {s : State} (h : Inv s) : Inv s.toReset := by
  obtain ⟨-, -, -, -, -, -, -, -, -, hw⟩ := h
  exact inv_of_atResetValues (atResetValues_toReset s) hw

theorem inv_respond {s : State} (h : Inv s) (st : BitVec 8) (d : W64) : Inv (s.respond st d) := h

theorem inv_respondClass {s : State} (h : Inv s) : Inv s.respondClass := inv_respond h _ _

theorem inv_accept {s : State} (h : Inv s) (rest : List HostEvent) : Inv (s.accept rest) := h

theorem inv_raise {s : State} (h : Inv s) (e : ErrorCode) : Inv (s.raise e) := by
  obtain ⟨htab, hval, hspec, hwin, hzero, hstaged, hflags, hstore⟩ := h
  exact ⟨htab, hval, hspec, hwin, hzero, hstaged, flagsLegal_setErrFlag hflags e, hstore⟩

theorem inv_unstage {s : State} (h : Inv s) : Inv s.unstage := by
  obtain ⟨htab, hval, hspec, hwin, hzero, -, hflags, hstore⟩ := h
  exact ⟨htab, hval, hspec, hwin, hzero, fun _ => rfl, hflags, hstore⟩

theorem inv_stage {s : State} (h : Inv s) (hm : s.mode ≠ .unconfigured) (k : Fin 3) (d : W64) : Inv (s.stage k d) := by
  obtain ⟨htab, hval, hspec, hwin, hzero, -, hflags, hstore⟩ := h
  exact ⟨htab, hval, hspec, hwin, hzero, fun hu => absurd hu hm, hflags, hstore⟩

theorem inv_writeCfg {s : State} (h : Inv s) (hm : s.mode = .unconfigured) (k : Fin 264) (d : W64) :
    Inv (s.writeCfg k d) := by
  obtain ⟨-, hval, hspec, -, hzero, hstaged, hflags, hstore⟩ := h
  exact ⟨fun hne => absurd hm hne, hval, hspec, fun hne => absurd hm hne, hzero, hstaged, hflags, hstore⟩

/-- INIT finds the window store empty, so what it leaves at or above WCAP is nothing (R115). -/
theorem runningZero_createInstance {s : State} (h : RunningZero s) : RunningZero s.createInstance := by
  obtain ⟨-, -, -, -, -, -, -, -, -, hwin, -⟩ := h
  refine ⟨rfl, rfl, rfl, rfl, rfl, rfl, rfl, rfl, rfl, ?_, rfl, rfl, rfl⟩
  rw [State.createInstance_win, hwin]
  rfl

theorem inv_createInstance {s : State} (h : Inv s) (hm : s.mode = .unconfigured) (hc : s.cfgValid = true) :
    Inv s.createInstance := by
  obtain ⟨-, -, -, -, hzero, -, hflags, -, -, hmax⟩ := h
  have hz : RunningZero s.createInstance := runningZero_createInstance (hzero (by rw [hm]; decide))
  have ⟨_, _, _, _, _, _, _, _, _, hwin, _⟩ := hz
  obtain ⟨hpos, -⟩ := wcap_bounds hc
  refine ⟨fun _ => hc, valuesFinite_of_runningZero hz, spectrumNonNegative_of_runningZero hz,
    fun _ => ⟨hpos, ?_, classify_posZero.symm⟩, fun _ => hz, fun hu => (nomatch hu), hflags, ?_⟩
  · rw [hwin, windowMax_nil]
    rfl
  · rw [StoreLegal, hwin]
    exact ⟨rfl, fun c hc => (nomatch hc), hmax⟩

/-- The first tick takes its own sample as the reference, every later one keeps the stored one
(41_signal_conditioner.md R132). -/
theorem tickRef_eq (s : State) : s.tickRef = if s.mode = .uninitialized then s.sx else s.ref := by
  simp only [State.tickRef, referenceSelect, beq_iff_eq]

theorem tickRef_allFinite {s : State} (hsx : s.sx.allFinite = true) (href : s.ref.allFinite = true) :
    s.tickRef.allFinite = true := by
  rw [tickRef_eq]
  split
  · exact hsx
  · exact href

theorem insertedWindow_nonNegative {s : State} (hwin : ∀ c ∈ s.win, NonNegative c.2) (hf : s.tick.allFinite = true) :
    ∀ c ∈ s.insertedWindow s.tick, NonNegative c.2 := by
  intro c hc
  obtain rfl | hc := Memory.mem_write hc
  · obtain ⟨j, hj⟩ := tickMax_mem s.tick.sva
    rw [hj]
    exact tickSva_nonNegative hf j
  · exact hwin c hc

theorem inv_commit {s : State} (h : Inv s) (ha : TickAccepted s) : Inv (s.unstage.commit s.tick) := by
  obtain ⟨htab, ⟨href, hx0, hx1, -, hy0, -⟩, ⟨-, -, hcells⟩, hwindow, -, -, hflags, hwf, hidx, hmax⟩ := h
  obtain ⟨⟨hm, -, hsx⟩, hf⟩ := ha
  obtain ⟨hx0', hy0', hv', hosc', -⟩ := (Tick.allFinite_iff s.tick).1 hf
  obtain ⟨hptr, -⟩ := hwindow hm
  obtain ⟨hpos, hle⟩ := wcap_bounds (htab hm)
  have hw : s.wcap ≤ 65535 := by
    simp only [Config.wcapMaxLegal, Bool.and_eq_true, decide_eq_true_iff] at hmax
    omega
  have hcells' := insertedWindow_nonNegative hcells hf
  have hmax30 : NonNegative (s.insertedMax s.tick) := by
    obtain ⟨i, -, he⟩ := windowMax_mem (s.insertedWindow s.tick) hpos
    rw [State.insertedMax, he]
    exact read_nonNegative hcells' i
  have hidx' : ∀ c ∈ s.insertedWindow s.tick, c.1 < s.wcapMax := by
    intro c hc
    obtain rfl | hc := Memory.mem_write hc
    · exact hptr.trans_le hle
    · exact hidx c hc
  have hosc : ∀ o ∈ s.tick.osc.entries, o.allFinite = true := by
    intro o ho
    obtain ⟨j, rfl⟩ := Table.mem_entries.1 ho
    exact hosc' j
  exact ⟨fun _ => htab hm, ⟨tickRef_allFinite hsx href, hx0', hx0, hx1, hy0', hy0, hv', hosc⟩,
    ⟨tickSva_nonNegative hf, hmax30, hcells'⟩, fun _ => ⟨nextPointer_lt hptr hw, rfl, rfl⟩, fun hne => absurd rfl hne,
    fun hu => (nomatch hu), hflags, Memory.wf_write hwf _ _, hidx', hmax⟩

theorem Completes.inv {i : Instr} {s t : State} (h : Completes s i t) (hs : Inv s) : Inv t := by
  cases h with
  | answered => exact inv_respond hs _ _
  | refused => exact inv_raise hs _
  | reset => exact inv_respond (inv_toReset hs) _ _
  | wrcfg k data hm => exact inv_respond (inv_writeCfg hs hm k data) _ _
  | init hm hc => exact inv_respond (inv_createInstance hs hm hc) _ _
  | lds k data hm => exact inv_respond (inv_stage hs hm k data) _ _
  | dropped => exact inv_raise (inv_unstage hs) _
  | ticked ha => exact inv_respondClass (inv_commit hs ha)

/-- Settles O11: every way a step and a command can end keeps the invariant. -/
theorem everyStepKeepsInvariant : Obligations.EveryStepKeepsInvariant := by
  intro s t hs h
  obtain ⟨-, rfl⟩ | ⟨rest, -, rfl⟩ | ⟨p, rest, why, -, -, rfl⟩ | ⟨p, rest, i, -, -, he⟩ := step_cases h
  · exact hs
  · exact inv_toReset (inv_accept hs rest)
  · exact inv_raise (inv_accept hs rest) _
  · exact (exec_completes he).inv (inv_accept hs rest)

/-- Settles O10: 6000 is a legal WCAP_MAX. -/
theorem resetMeetsInvariant : Obligations.ResetMeetsInvariant :=
  inv_of_atResetValues (atResetValues_toReset State.reset) (by decide)

/-! ### STATE and REF -/

theorem Completes.mode_cases {i : Instr} {s t : State} (h : Completes s i t) :
    t.mode = s.mode ∨ (i = .reset ∧ t.mode = .unconfigured) ∨
      (i = .init ∧ s.mode = .unconfigured ∧ s.cfgValid = true ∧ t.mode = .uninitialized) ∨
      (i = .update ∧ TickAccepted s ∧ t.mode = .running) := by
  cases h with
  | answered | refused | wrcfg | lds | dropped => exact .inl rfl
  | reset => exact .inr (.inl ⟨rfl, rfl⟩)
  | init hm hc => exact .inr (.inr (.inl ⟨rfl, hm, hc, rfl⟩))
  | ticked h => exact .inr (.inr (.inr ⟨rfl, h, rfl⟩))

/-- A tick that leaves a state other than RUNNING is the first. -/
theorem uninitialized_of_tickAccepted {s : State} (h : TickAccepted s) (hne : s.mode ≠ .running) :
    s.mode = .uninitialized := by
  obtain ⟨⟨hm, -⟩, -⟩ := h
  cases hs : s.mode <;> simp_all

/-- Settles O15, by the ways a step and a command can end. -/
theorem stateChangesOnlyAsListed : Obligations.StateChangesOnlyAsListed := by
  intro s t h hne
  obtain ⟨-, rfl⟩ | ⟨rest, hp, rfl⟩ | ⟨p, rest, why, -, -, rfl⟩ | ⟨p, rest, i, hp, hd, he⟩ := step_cases h
  · exact absurd rfl hne
  · exact .inl ⟨by rw [hp]; rfl, rfl⟩
  · exact absurd rfl hne
  · refine .inr ⟨p, i, by rw [hp]; rfl, hd, ?_⟩
    obtain hm | hr | ⟨hi, hm, hc, ht⟩ | ⟨hi, ha, ht⟩ := (exec_completes he).mode_cases
    · exact absurd hm hne
    · exact .inl hr
    · exact .inr (.inl ⟨hi, hm, (cfgValid_iff (s.accept rest)).1 hc, ht⟩)
    · exact .inr (.inr ⟨hi, uninitialized_of_tickAccepted ha fun e => hne (ht.trans e.symm), ha, ht⟩)

/-- Settles O28, by the ways a command can end. -/
theorem referenceWrittenOncePerInstance : Obligations.ReferenceWrittenOncePerInstance := by
  intro i s t h hne
  cases exec_completes h with
  | answered | refused | wrcfg | lds | dropped => exact absurd rfl hne
  | reset => exact .inr ⟨.inr rfl, rfl⟩
  | init => exact .inr ⟨.inl rfl, rfl⟩
  | ticked ha =>
    have href : s.tickRef ≠ s.ref := hne
    rw [tickRef_eq] at href
    obtain ⟨hm, -⟩ := ite_ne_right_iff.1 href
    exact .inl ⟨rfl, hm, ha, (tickRef_eq s).trans (if_pos hm), rfl⟩

end Sys2Proof.StateRules
end

section
/-! PROOFS. The host port (20_memory.md R60, R66): every command answers once and from the state elements alone, a step
takes exactly the head of the port, and a run answers its packets in order. `exec_answersOnce` says it of a command,
`step_packet` of a step and `run_packets` of a run. -/

namespace Sys2Proof.PortRules

open Sys2Proof Sys2Proof.Machine Sys2Proof.Safety

/-! ### The port and the state elements -/

/-- The state with other events pending and other responses delivered. -/
def atPort (s : State) (q : List HostEvent) (d : List Response) : State := { s with pending := q, delivered := d }

/-- A value read from the state elements alone. -/
def PortFree {α : Type} (f : State → α) : Prop := ∀ s q d, f (atPort s q d) = f s

/-- An update of the state elements alone. -/
def PortKeeping (u : State → State) : Prop := ∀ s q d, u (atPort s q d) = atPort (u s) q d

/-- A meaning that always answers a next state with one response, both of them fixed by the state elements. -/
def AnswersOnce (k : State → Result) : Prop :=
  ∀ s, ∃ (t : State) (r : Response), k s = .next t ∧ t.pending = s.pending ∧ t.delivered = s.delivered ++ [r] ∧
    ∀ q d, k (atPort s q d) = .next (atPort t q (d ++ [r]))

theorem PortKeeping.pending {u : State → State} (h : PortKeeping u) (s : State) : (u s).pending = s.pending :=
  (congrArg State.pending (h s s.pending s.delivered) :)

theorem PortKeeping.delivered {u : State → State} (h : PortKeeping u) (s : State) : (u s).delivered = s.delivered :=
  (congrArg State.delivered (h s s.pending s.delivered) :)

theorem answersOnce_respond {u : State → State} {data : State → W64} (hu : PortKeeping u) (hd : PortFree data)
    (st : BitVec 8) : AnswersOnce fun s => .next ((u s).respond st (data s)) := by
  refine fun s => ⟨_, ⟨responseWord st (u s).lclass, data s⟩, rfl, hu.pending s, ?_, fun q d => ?_⟩
  · rw [State.respond_delivered, hu.delivered]
  · simp only [hu s q d, hd s q d]
    rfl

theorem answersOnce_raise {u : State → State} (hu : PortKeeping u) (e : ErrorCode) :
    AnswersOnce fun s => .next ((u s).raise e) :=
  have hflag : PortKeeping fun s => { u s with errflags := setErrFlag (u s).errflags e } := fun s q d => by
    simp only [hu s q d]
    rfl
  answersOnce_respond hflag (fun _ _ _ => rfl) e.code

theorem AnswersOnce.ite {c : State → Prop} [DecidablePred c] {k l : State → Result} (hc : PortFree c)
    (hk : AnswersOnce k) (hl : AnswersOnce l) : AnswersOnce fun s => if c s then k s else l s := by
  intro s
  by_cases h : c s
  · simpa only [hc s, h, if_true] using hk s
  · simpa only [hc s, h, if_false] using hl s

/-- A test of the operand, the same in every state. -/
theorem AnswersOnce.dite {p : Prop} [Decidable p] {k : p → State → Result} {l : State → Result}
    (hk : ∀ h, AnswersOnce (k h)) (hl : AnswersOnce l) : AnswersOnce fun s => if h : p then k h s else l s := by
  by_cases h : p
  · simpa only [h, dif_pos] using hk h
  · simpa only [h, dif_neg, not_false_eq_true] using hl

theorem portKeeping_id : PortKeeping fun s => s := fun _ _ _ => rfl

theorem answersOnce_beforeInstance {k : State → Result} (hk : AnswersOnce k) :
    AnswersOnce fun s => beforeInstance s (k s) :=
  .ite (fun _ _ _ => rfl) hk (answersOnce_raise portKeeping_id _)

theorem answersOnce_inInstance {k : State → Result} (hk : AnswersOnce k) : AnswersOnce fun s => inInstance s (k s) :=
  .ite (fun _ _ _ => rfl) (answersOnce_raise portKeeping_id _) hk

theorem answersOnce_publish {inRange : State → Bool} {value : State → W64} (hr : PortFree inRange)
    (hv : PortFree value) : AnswersOnce fun s => publish s (inRange s) (value s) :=
  answersOnce_inInstance
    (.ite (fun s q d => congrArg (· = true) (hr s q d)) (answersOnce_respond portKeeping_id hv _)
      (answersOnce_raise portKeeping_id _))

theorem answersOnce_execUpdate : AnswersOnce execUpdate := by
  have hcommit : AnswersOnce fun s => .next (s.unstage.commit s.tick).respondClass :=
    answersOnce_respond (u := fun s => s.unstage.commit s.tick) (fun _ _ _ => rfl) (fun _ _ _ => rfl) _
  have hraise (e : ErrorCode) : AnswersOnce fun s => .next (s.unstage.raise e) :=
    answersOnce_raise (u := State.unstage) (fun _ _ _ => rfl) e
  exact answersOnce_inInstance (.ite (fun _ _ _ => rfl) (.ite (fun _ _ _ => rfl) hcommit (hraise _)) (hraise _))

theorem exec_answersOnce (i : Instr) : AnswersOnce (exec i) := by
  cases i with
  | nop => exact answersOnce_respond portKeeping_id (fun _ _ _ => rfl) _
  | reset => exact answersOnce_respond (u := State.toReset) (fun _ _ _ => rfl) (fun _ _ _ => rfl) _
  | wrcfg idx data =>
    exact answersOnce_beforeInstance
      (.dite
        (fun h => answersOnce_respond (u := fun s => s.writeCfg ⟨idx, h⟩ data) (fun _ _ _ => rfl) (fun _ _ _ => rfl) _)
        (answersOnce_raise portKeeping_id _))
  | init =>
    exact answersOnce_beforeInstance
      (.ite (fun _ _ _ => rfl) (answersOnce_respond (u := State.createInstance) (fun _ _ _ => rfl) (fun _ _ _ => rfl) _)
        (answersOnce_raise portKeeping_id _))
  | lds idx data =>
    exact answersOnce_inInstance
      (.dite
        (fun h => answersOnce_respond (u := fun s => s.stage ⟨idx, h⟩ data) (fun _ _ _ => rfl) (fun _ _ _ => rfl) _)
        (answersOnce_raise portKeeping_id _))
  | update => exact answersOnce_execUpdate
  | rdsva idx | rdacc idx | rdvel idx | rdwin idx => exact answersOnce_publish (fun _ _ _ => rfl) (fun _ _ _ => rfl)
  | rdmax | rdclass => exact answersOnce_inInstance (answersOnce_respond portKeeping_id (fun _ _ _ => rfl) _)
  | rdstat => exact answersOnce_respond portKeeping_id (fun _ _ _ => rfl) _

/-- Settles O14. -/
theorem commandsIgnoreThePort : Obligations.CommandsIgnoreThePort := exec_answersOnce

/-! ### A step, by the head of the port -/

theorem step_idle {s : State} (hp : s.pending = []) : step s = .next s := by
  simp only [step, fetch, hp]

theorem step_hardwareReset {s : State} {rest : List HostEvent} (hp : s.pending = .hardwareReset :: rest) :
    step s = .next (s.accept rest).toReset := by
  simp only [step, fetch, hp]

theorem step_illegal {s : State} {p : Packet} {rest : List HostEvent} {why : Illegal}
    (hp : s.pending = .command p :: rest) (hd : decode p = .error why) :
    step s = .next ((s.accept rest).raise .illegalCommand) := by
  simp only [step, fetch, hp, fetchPacket, hd]

theorem step_command {s : State} {p : Packet} {rest : List HostEvent} {i : Instr}
    (hp : s.pending = .command p :: rest) (hd : decode p = .ok i) : step s = exec i (s.accept rest) := by
  simp only [step, fetch, hp, fetchPacket, hd]

/-- Settles O5. -/
theorem stepRunsDecodedCommand : Obligations.StepRunsDecodedCommand := fun _ _ _ _ => step_command

theorem decodeTableWord_eq_some {nbits w : Nat} {i : Instr} (h : decodeTableWord nbits w = some i) :
    decode (packetOfTableWord nbits w) = .ok i := by
  unfold decodeTableWord at h
  split at h
  · next hd => rw [hd, Option.some.inj h]
  · cases h

/-- Settles O6: taking the presented packet off the port restores the state. -/
theorem fetchWordRunsNext : Obligations.FetchWordRunsNext := fun s nbits w _ h =>
  step_command (State.present_pending s (packetOfTableWord nbits w)) (decodeTableWord_eq_some h)

/-- A packet at the head of the port is taken off it and gets exactly one response. -/
theorem step_packet {s : State} {p : Packet} {rest : List HostEvent} (hp : s.pending = .command p :: rest) :
    ∃ (t : State) (r : Response), step s = .next t ∧ t.pending = rest ∧ t.delivered = s.delivered ++ [r] := by
  cases hd : decode p with
  | error why => exact ⟨_, _, step_illegal hp hd, rfl, rfl⟩
  | ok i =>
    obtain ⟨t, r, he, hpend, hdel, -⟩ := exec_answersOnce i (s.accept rest)
    exact ⟨t, r, (step_command hp hd).trans he, hpend, hdel⟩

/-- Settles O12, by the head of the port. -/
theorem everyStepAnswers : Obligations.EveryStepAnswers := by
  intro s
  match hp : s.pending with
  | [] => exact ⟨s, step_idle hp, hp, nofun, fun _ => rfl⟩
  | .hardwareReset :: rest => exact ⟨_, step_hardwareReset hp, rfl, nofun, fun _ => rfl⟩
  | .command p :: rest =>
    obtain ⟨t, r, he, hpend, hdel⟩ := step_packet hp
    exact ⟨t, he, hpend, fun _ _ => ⟨r, hdel⟩, fun h => absurd rfl (h p)⟩

/-! ### A run -/

theorem run_succ {s t : State} (h : step s = .next t) (k : Nat) :
    Host.Core.run core (k + 1) s = Host.Core.run core k t := by
  have hstep : core.step s = .next t := h
  simp only [Host.Core.run, hstep]

theorem run_add {m : Nat} {s u : State} (h : Host.Core.run core m s = .next u) (n : Nat) :
    Host.Core.run core (m + n) s = Host.Core.run core n u := by
  induction m generalizing s with
  | zero =>
    cases h
    rw [Nat.zero_add]
  | succ m ih =>
    obtain ⟨v, hv, -⟩ := everyStepAnswers s
    rw [run_succ hv] at h
    rw [Nat.succ_add, run_succ hv, ih h]

/-- Packets at the head of the port are answered one for one, in as many steps, ahead of what comes after them. -/
theorem run_packets {ps : List Packet} {rest : List HostEvent} {s : State}
    (hp : s.pending = ps.map HostEvent.command ++ rest) :
    ∃ (t : State) (rs : List Response), Host.Core.run core ps.length s = .next t ∧ t.pending = rest ∧
      t.delivered = s.delivered ++ rs ∧ rs.length = ps.length := by
  induction ps generalizing s with
  | nil => exact ⟨s, [], rfl, hp, (List.append_nil _).symm, rfl⟩
  | cons p ps ih =>
    obtain ⟨u, r, hu, hpend, hdel⟩ := step_packet hp
    obtain ⟨t, rs, ht, htpend, htdel, hlen⟩ := ih hpend
    refine ⟨t, r :: rs, (run_succ hu _).trans ht, htpend, ?_, congrArg (· + 1) hlen⟩
    rw [htdel, hdel, List.append_assoc, List.singleton_append]

/-- Settles O13: the run is cut after `k` packets, and what comes after the cut only appends. -/
theorem runAnswersEveryCommandInOrder : Obligations.RunAnswersEveryCommandInOrder := by
  intro s ps hp
  obtain ⟨t, rs, ht, htpend, htdel, hlen⟩ := run_packets (hp.trans (List.append_nil _).symm)
  refine ⟨t, ht, htpend, by rw [htdel, List.length_append, hlen], fun k hk => ?_⟩
  have hcut : s.pending = (ps.take k).map HostEvent.command ++ (ps.drop k).map HostEvent.command := by
    rw [hp, ← List.map_append, List.take_append_drop]
  obtain ⟨u, rs₁, hu, hupend, hudel, hlen₁⟩ := run_packets hcut
  obtain ⟨t', rs₂, ht', -, htdel', -⟩ := run_packets (hupend.trans (List.append_nil _).symm)
  have htt : t' = t := by
    rw [← run_add hu, ← List.length_append, List.take_append_drop, ht] at ht'
    injection ht' with h
    exact h.symm
  have hk' : (ps.take k).length = k := List.length_take_of_le hk
  rw [hk'] at hu hlen₁
  refine ⟨u, hu, hupend, ?_⟩
  have hsplit : s.delivered.length + k = u.delivered.length := by rw [hudel, List.length_append, hlen₁]
  rw [← htt, htdel', hsplit, List.take_left]

/-! ### Between INIT and the next reset (20_memory.md R69) -/

/-- Neither a hardware reset nor a RESET packet is pending. -/
def NoResetPending (s : State) : Prop :=
  ∀ e ∈ s.pending, e ≠ .hardwareReset ∧ ∀ d, e ≠ .command ⟨0x01000000#32, d⟩

/-- What holds from `s` to `t` outside UNCONFIGURED: the table, that UNCONFIGURED is not entered, and once RUNNING the
mode and the reference. -/
def InstanceKept (s t : State) : Prop :=
  t.cfg = s.cfg ∧ t.cw = s.cw ∧ t.mode ≠ .unconfigured ∧ (s.mode = .running → t.mode = .running ∧ t.ref = s.ref)

theorem InstanceKept.refl {s : State} (h : s.mode ≠ .unconfigured) : InstanceKept s s :=
  ⟨rfl, rfl, h, fun hr => ⟨hr, rfl⟩⟩

theorem InstanceKept.trans {s t u : State} (hst : InstanceKept s t) (htu : InstanceKept t u) : InstanceKept s u := by
  obtain ⟨hcfg, hcw, -, hrun⟩ := hst
  obtain ⟨hcfg', hcw', hm, hrun'⟩ := htu
  refine ⟨hcfg'.trans hcfg, hcw'.trans hcw, hm, fun hs => ?_⟩
  obtain ⟨ht, href⟩ := hrun hs
  obtain ⟨hu, href'⟩ := hrun' ht
  exact ⟨hu, href'.trans href⟩

theorem decodeNoIndex_eq_ok_iff (p : Packet) (i j : Instr) : decodeNoIndex p i = .ok j ↔ p.idx = 0 ∧ i = j := by
  unfold decodeNoIndex
  split <;> simp_all

theorem decodeOpcode_eq_reset {p : Packet} (h : decodeOpcode p = .ok .reset) : p.op = 1 ∧ p.idx = 0 := by
  unfold decodeOpcode at h
  split at h <;> simp_all [decodeNoIndex_eq_ok_iff]

/-- Only the word of RESET's row (30_encoding.md R82) decodes to RESET. -/
theorem word_of_decode_reset {p : Packet} (h : decode p = .ok .reset) : p.word = 0x01000000#32 := by
  unfold decode at h
  split at h
  · cases h
  next hrsv =>
    obtain ⟨hop, hidx⟩ := decodeOpcode_eq_reset h
    rw [Packet.op_eq] at hop
    rw [Packet.idx_eq] at hidx
    rw [Packet.rsv_eq] at hrsv
    apply BitVec.eq_of_toNat_eq
    rw [BitVec.toNat_ofNat]
    omega

/-- Outside UNCONFIGURED only RESET touches the table or leaves RUNNING, and only the first tick or RESET writes REF. -/
theorem instanceKept_of_completes {i : Instr} {s t : State} (h : StateRules.Completes s i t)
    (hm : s.mode ≠ .unconfigured) (hi : i ≠ .reset) : InstanceKept s t := by
  cases h with
  | answered | refused | lds | dropped => exact InstanceKept.refl hm
  | reset => exact absurd rfl hi
  | wrcfg _ _ hu | init hu => exact absurd hu hm
  | ticked =>
    refine ⟨rfl, rfl, nofun, fun hr => ⟨rfl, (StateRules.tickRef_eq s).trans (if_neg ?_)⟩⟩
    rw [hr]
    exact nofun

theorem instanceKept_of_step {s t : State} (hm : s.mode ≠ .unconfigured) (hn : NoResetPending s)
    (h : step s = .next t) : InstanceKept s t := by
  obtain ⟨-, rfl⟩ | ⟨rest, hp, -⟩ | ⟨p, rest, why, -, -, rfl⟩ | ⟨p, rest, i, hp, hd, he⟩ := StateRules.step_cases h
  · exact .refl hm
  · exact absurd rfl (hn .hardwareReset (by simp [hp])).1
  · exact InstanceKept.refl hm
  · refine instanceKept_of_completes (s := s.accept rest) (StateRules.exec_completes he) hm ?_
    rintro rfl
    obtain ⟨-, hne⟩ := hn (.command p) (by simp [hp])
    exact hne p.data (by rw [← word_of_decode_reset hd])

theorem NoResetPending.step {s t : State} (hn : NoResetPending s) (h : t.pending = s.pending.tail) :
    NoResetPending t := fun e he => hn e (List.mem_of_mem_tail (h ▸ he))

theorem instanceKept_of_run {n : Nat} {s t : State} (hm : s.mode ≠ .unconfigured) (hn : NoResetPending s)
    (h : Host.Core.run core n s = .next t) : InstanceKept s t := by
  induction n generalizing s with
  | zero =>
    cases h
    exact .refl hm
  | succ n ih =>
    obtain ⟨u, hu, hpend, -⟩ := everyStepAnswers s
    have hkept := instanceKept_of_step hm hn hu
    have ⟨_, _, hm', _⟩ := hkept
    rw [run_succ hu] at h
    exact hkept.trans (ih hm' (hn.step hpend) h)

/-- Settles O16, by induction on the steps. -/
theorem instanceKeepsTableAndReference : Obligations.InstanceKeepsTableAndReference :=
  fun _ _ _ hm hn h => instanceKept_of_run hm hn h

end Sys2Proof.PortRules
end

section
/-! PROOFS. The logical window (20_memory.md R62): the ring address is a remainder, and the pointer after a tick puts the
entry just written at the newest end. -/

namespace Sys2Proof.WindowRules

open Sys2Proof Sys2Proof.Machine Sys2Proof.Safety

/-- One conditional subtraction is the remainder. -/
theorem windowAddress_eq_mod {wptr wcap i : Nat} (hptr : wptr < wcap) (hi : i < wcap) :
    windowAddress wptr wcap i = (wptr + i) % wcap := by
  rw [windowAddress, Nat.add_mod_eq_ite, Nat.mod_eq_of_lt hptr, Nat.mod_eq_of_lt hi]

theorem nextPointer_toNat {wptr : W16} {wcap : Nat} (hptr : wptr.toNat < wcap) (hw : wcap ≤ 65535) :
    (nextPointer wptr wcap).toNat = (wptr.toNat + 1) % wcap := by
  unfold nextPointer
  split
  · next hlast => rw [hlast, Nat.mod_self, BitVec.toNat_ofNat, Nat.zero_mod]
  · rw [BitVec.toNat_add, BitVec.toNat_ofNat, Nat.mod_eq_of_lt (b := wcap) (by omega)]
    omega

/-- The newest logical entry of the next pointer is the oldest of this one. -/
theorem nextPointer_newest {wptr : W16} {wcap : Nat} (hptr : wptr.toNat < wcap) (hw : wcap ≤ 65535) :
    ((nextPointer wptr wcap).toNat + (wcap - 1)) % wcap = wptr.toNat := by
  have hsum : wptr.toNat + 1 + (wcap - 1) = wptr.toNat + wcap := by omega
  rw [nextPointer_toNat hptr hw, Nat.mod_add_mod, hsum, Nat.add_mod_right, Nat.mod_eq_of_lt hptr]

/-- What the invariant says of the pointer and the capacity outside UNCONFIGURED. -/
theorem window_bounds {s : State} (h : Inv s) (hm : s.mode ≠ .unconfigured) :
    s.wptr.toNat < s.wcap ∧ s.wcap ≤ s.wcapMax ∧ s.wcapMax ≤ 65535 := by
  obtain ⟨htab, -, -, hwin, -, -, -, -, -, hmax⟩ := h
  obtain ⟨hptr, -⟩ := hwin hm
  obtain ⟨-, hle⟩ := StateRules.wcap_bounds (htab hm)
  simp only [Config.wcapMaxLegal, Bool.and_eq_true, decide_eq_true_iff] at hmax
  exact ⟨hptr, hle, hmax.2⟩

theorem exec_rdwin {s : State} {i : Nat} (h : Inv s) (hm : s.mode ≠ .unconfigured) (hi : i < s.wcap) :
    exec (.rdwin i) s = .next (answered s (s.win.read ((s.wptr.toNat + i) % s.wcap))) := by
  obtain ⟨hptr, -⟩ := window_bounds h hm
  rw [← windowAddress_eq_mod hptr hi, ← State.respond_ok_eq]
  obtain ⟨hu, -⟩ | ⟨-, hr, -⟩ | ⟨-, -, he⟩ := publish_eq s (decide (i < s.wcap)) (s.windowEntry i)
  · exact absurd hu hm
  · exact absurd hi (of_decide_eq_false hr)
  · exact he

theorem exec_update_of_tickAccepted {s : State} (ha : TickAccepted s) :
    exec .update s = .next (s.unstage.commit s.tick).respondClass := by
  obtain ⟨⟨hm, hready⟩, hf⟩ := ha
  rw [← StateRules.sampleReady_iff] at hready
  obtain ⟨hu, -⟩ | ⟨-, hr, -⟩ | ⟨-, -, ht, -⟩ | ⟨-, -, -, he⟩ := execUpdate_eq s
  · exact absurd hu hm
  · cases hready.symm.trans hr
  · cases hf.symm.trans ht
  · exact he

/-- An accepted tick writes its maximum at the pointer, nothing else into the window, and moves the pointer on. -/
theorem window_of_tickAccepted {s t : State} (hs : Inv s) (ha : TickAccepted s) (h : exec .update s = .next t) :
    (∀ a, t.win.read a = if a = s.wptr.toNat then tickMax t.sva else s.win.read a) ∧
      t.wptr = nextPointer s.wptr s.wcap ∧ t.wcap = s.wcap ∧ t.mode ≠ .unconfigured := by
  obtain ⟨-, -, -, -, -, -, -, hwf, -⟩ := hs
  rw [exec_update_of_tickAccepted ha] at h
  cases h
  exact ⟨fun a => Memory.read_write s.win hwf _ _ a, rfl, rfl, nofun⟩

/-- Settles O48: after an accepted tick the newest logical entry is the ring address it wrote. -/
theorem logicalWindowRule : Obligations.LogicalWindowRule := by
  refine ⟨fun s i hs hm hi => ?_, fun s t hs ha h => ?_⟩
  · obtain ⟨hptr, hle, hmax⟩ := window_bounds hs hm
    exact ⟨exec_rdwin hs hm hi, by omega, by omega⟩
  · have ⟨⟨hm, _⟩, _⟩ := ha
    obtain ⟨hptr, hle, hmax⟩ := window_bounds hs hm
    obtain ⟨hread, hwptr, hwcap, hm'⟩ := window_of_tickAccepted hs ha h
    refine ⟨fun a hne => ?_, ?_⟩
    · rw [Nat.mod_eq_of_lt hptr] at hne
      rw [hread, if_neg hne]
    · have ht : Inv t := (StateRules.exec_completes h).inv hs
      rw [exec_rdwin ht hm' (by omega), hwptr, hwcap, nextPointer_newest hptr (by omega), hread, if_pos rfl]

end Sys2Proof.WindowRules
end

section
/-! PROOFS. The decoder and the encoder (30_encoding.md R80 to R89). `decode_eq_ok_iff` says once when a packet is a
given command, field by field; the round trip, the rows of the opcode table and the worked encodings are read off it. -/

namespace Sys2Proof.EncodingRules

open Sys2Proof Sys2Proof.Machine Sys2Proof.Laws

/-! ### The fields of a command (R82, R87) -/

/-- `cmd.op` of a command. -/
def opcode : Instr → BitVec 8
  | .nop => 0x00#8
  | .reset => 0x01#8
  | .wrcfg _ _ => 0x02#8
  | .init => 0x03#8
  | .lds _ _ => 0x04#8
  | .update => 0x05#8
  | .rdsva _ => 0x10#8
  | .rdacc _ => 0x11#8
  | .rdvel _ => 0x12#8
  | .rdmax => 0x13#8
  | .rdwin _ => 0x14#8
  | .rdclass => 0x15#8
  | .rdstat => 0x16#8

/-- `cmd.idx` of a command, 0 where it has no index. -/
def index : Instr → Nat
  | .wrcfg idx _ | .lds idx _ | .rdsva idx | .rdacc idx | .rdvel idx | .rdwin idx => idx
  | .nop | .reset | .init | .update | .rdmax | .rdclass | .rdstat => 0

/-- `cmd.data` may be `d`: it is the operand of a command that has one, and anything for a command that ignores it. -/
def TakesData (d : W64) : Instr → Prop
  | .wrcfg _ data | .lds _ data => data = d
  | .nop | .reset | .init | .update | .rdsva _ | .rdacc _ | .rdvel _ | .rdmax | .rdwin _ | .rdclass | .rdstat => True

theorem encode_word (i : Instr) : (encode i).word = commandWord (opcode i) (index i) := by
  cases i <;> rfl

theorem takesData_encode (i : Instr) : TakesData (encode i).data i := by
  cases i <;> simp [TakesData, encode]

theorem wellFormed_iff (i : Instr) : i.wellFormed = true ↔ index i < 2 ^ 16 := by
  cases i <;> simp [Instr.wellFormed, index]

/-! ### What decodes to a command (R85) -/

theorem idx_lt (p : Packet) : p.idx < 2 ^ 16 := by
  rw [Packet.idx_eq]
  exact Nat.mod_lt _ (by decide)

/-- A command word is its three fields. -/
theorem word_eq_commandWord_iff (p : Packet) (op : BitVec 8) {idx : Nat} (h : idx < 2 ^ 16) :
    commandWord op idx = p.word ↔ p.rsv = 0 ∧ p.op = op.toNat ∧ p.idx = idx := by
  have := op.isLt
  rw [← BitVec.toNat_inj, commandWord_toNat op h, Packet.rsv_eq, Packet.op_eq, Packet.idx_eq]
  omega

/-- R85 steps 2 to 4: the opcode selects the command, and an index or data it does not take is 0 or ignored. -/
theorem decodeOpcode_eq_ok_iff (p : Packet) (i : Instr) :
    decodeOpcode p = .ok i ↔ p.op = (opcode i).toNat ∧ p.idx = index i ∧ TakesData p.data i := by
  constructor
  · intro h
    unfold decodeOpcode at h
    split at h
    case h_1 | h_2 | h_4 | h_6 | h_10 | h_12 | h_13 =>
      obtain ⟨hidx, rfl⟩ := (PortRules.decodeNoIndex_eq_ok_iff p _ i).1 h
      exact ⟨‹_›, hidx, trivial⟩
    case h_3 | h_5 | h_7 | h_8 | h_9 | h_11 =>
      cases h
      exact ⟨‹_›, rfl, by simp [TakesData]⟩
    case h_14 => cases h
  · rintro ⟨hop, hidx, hdata⟩
    cases i <;> simp_all [decodeOpcode, opcode, index, TakesData, PortRules.decodeNoIndex_eq_ok_iff]

theorem decode_eq_ok_iff_fields (p : Packet) (i : Instr) :
    decode p = .ok i ↔ p.rsv = 0 ∧ p.op = (opcode i).toNat ∧ p.idx = index i ∧ TakesData p.data i := by
  rw [← decodeOpcode_eq_ok_iff]
  unfold decode
  split <;> simp_all

/-- A packet decodes to a command exactly when it carries the command's word and, where the command takes data, its
data. -/
theorem decode_eq_ok_iff (p : Packet) (i : Instr) :
    decode p = .ok i ↔ i.wellFormed = true ∧ (encode i).word = p.word ∧ TakesData p.data i := by
  rw [decode_eq_ok_iff_fields, wellFormed_iff, encode_word]
  constructor
  · rintro ⟨hrsv, hop, hidx, hdata⟩
    have hlt : index i < 2 ^ 16 := hidx ▸ idx_lt p
    exact ⟨hlt, (word_eq_commandWord_iff p _ hlt).2 ⟨hrsv, hop, hidx⟩, hdata⟩
  · rintro ⟨hlt, hword, hdata⟩
    obtain ⟨hrsv, hop, hidx⟩ := (word_eq_commandWord_iff p _ hlt).1 hword
    exact ⟨hrsv, hop, hidx, hdata⟩

theorem decode_encode {i : Instr} (h : i.wellFormed = true) : decode (encode i) = .ok i :=
  (decode_eq_ok_iff _ i).2 ⟨h, rfl, takesData_encode i⟩

/-- Where a command takes data its packet is the encoding, word and data. -/
theorem encode_eq_of_takesData {p : Packet} {i : Instr} {idx : Nat} {data : W64}
    (hi : i = .wrcfg idx data ∨ i = .lds idx data) (hword : (encode i).word = p.word) (hdata : TakesData p.data i) :
    data = p.data ∧ encode i = p := by
  obtain ⟨w, d⟩ := p
  obtain rfl | rfl := hi <;> obtain rfl : data = d := hdata <;> exact ⟨rfl, congrArg (Packet.mk · data) hword⟩

/-- Settles O1. -/
theorem encodedCommandsDecode : Obligations.EncodedCommandsDecode := by
  refine ⟨fun _ => decode_encode, fun p i h => ?_⟩
  obtain ⟨hwf, hword, hdata⟩ := (decode_eq_ok_iff p i).1 h
  exact ⟨hwf, hword, fun _ _ hi => encode_eq_of_takesData hi hword hdata⟩

/-! ### The rows of the opcode table (R82) -/

theorem encodesRow (i : Instr) : EncodesRow.Statement i := by
  cases i with
  | nop => exact EncodesRow.nop
  | reset => exact EncodesRow.reset
  | wrcfg idx data => exact EncodesRow.wrcfg idx data
  | init => exact EncodesRow.init
  | lds idx data => exact EncodesRow.lds idx data
  | update => exact EncodesRow.update
  | rdsva idx => exact EncodesRow.rdsva idx
  | rdacc idx => exact EncodesRow.rdacc idx
  | rdvel idx => exact EncodesRow.rdvel idx
  | rdmax => exact EncodesRow.rdmax
  | rdwin idx => exact EncodesRow.rdwin idx
  | rdclass => exact EncodesRow.rdclass
  | rdstat => exact EncodesRow.rdstat

/-- The low half of a word is what a row with an index leaves out of its mask. -/
theorem and_lowHalf (w : W32) : w &&& ~~~0xFFFF0000#32 = BitVec.ofNat 32 (w.toNat % 2 ^ 16) := by
  have hmask : ~~~0xFFFF0000#32 = BitVec.ofNat 32 (2 ^ 16 - 1) := rfl
  apply BitVec.eq_of_toNat_eq
  rw [hmask, BitVec.toNat_and, BitVec.toNat_ofNat, BitVec.toNat_ofNat, Nat.mod_eq_of_lt (by decide),
    Nat.and_two_pow_sub_one_eq_mod]
  omega

/-- The bits of an encoded word outside the mask of its row are its index. -/
theorem encode_word_index {i : Instr} (h : i.wellFormed = true) :
    (encode i).word &&& ~~~rowMask i = BitVec.ofNat 32 (index i) := by
  rw [wellFormed_iff] at h
  cases i with
  | nop | reset | init | update | rdmax | rdclass | rdstat => rfl
  | wrcfg idx _ | lds idx _ | rdsva idx | rdacc idx | rdvel idx | rdwin idx =>
    rw [encode_word, rowMask, and_lowHalf, commandWord_toNat _ h]
    exact congrArg (BitVec.ofNat 32) (by rw [index] at h ⊢; omega)

theorem eq_of_and_eq {a b m : W32} (h : a &&& m = b &&& m) (hc : a &&& ~~~m = b &&& ~~~m) : a = b := by
  have hsplit (w : W32) : w = (w &&& m) ||| (w &&& ~~~m) := by
    rw [← BitVec.and_or_distrib_left, BitVec.or_not_self, BitVec.and_allOnes]
  rw [hsplit a, hsplit b, h, hc]

/-- A word selects a command with its index and its data exactly when word and mask give the match value. -/
theorem decode_eq_ok_iff_row {w : W32} {d : W64} {i : Instr} (hidx : BitVec.ofNat 32 (index i) = w &&& ~~~rowMask i)
    (hwf : i.wellFormed = true) (hdata : TakesData d i) : decode ⟨w, d⟩ = .ok i ↔ w &&& rowMask i = rowMatch i := by
  rw [decode_eq_ok_iff, ← encodesRow i]
  constructor
  · rintro ⟨-, rfl, -⟩
    rfl
  · exact fun h => ⟨hwf, eq_of_and_eq h.symm ((encode_word_index hwf).trans hidx), hdata⟩

/-- A row without an index. -/
theorem decode_eq_ok_iff_noIndex (w : W32) (d : W64) {i : Instr} (hmask : rowMask i = 0xFFFFFFFF#32)
    (hi : index i = 0) (hdata : TakesData d i) : decode ⟨w, d⟩ = .ok i ↔ w &&& 0xFFFFFFFF#32 = rowMatch i := by
  rw [← hmask]
  refine decode_eq_ok_iff_row ?_ ((wellFormed_iff i).2 (hi ▸ by decide)) hdata
  have hzero : ~~~0xFFFFFFFF#32 = 0#32 := rfl
  rw [hi, hmask, hzero, BitVec.and_zero]

/-- A row with an index, bits 15:0 of the word. -/
theorem decode_eq_ok_iff_index (w : W32) (d : W64) {i : Instr} (hmask : rowMask i = 0xFFFF0000#32)
    (hi : index i = w.toNat % 2 ^ 16) (hdata : TakesData d i) :
    decode ⟨w, d⟩ = .ok i ↔ w &&& 0xFFFF0000#32 = rowMatch i := by
  rw [← hmask]
  refine decode_eq_ok_iff_row ?_ ((wellFormed_iff i).2 (hi ▸ Nat.mod_lt _ (by decide))) hdata
  rw [hi, hmask, and_lowHalf]

/-- Settles O2, row by row. -/
theorem rowsSelectByMatchAndMask : Obligations.RowsSelectByMatchAndMask := fun w d =>
  ⟨decode_eq_ok_iff_noIndex w d rfl rfl trivial, decode_eq_ok_iff_noIndex w d rfl rfl trivial,
    decode_eq_ok_iff_index w d rfl rfl rfl, decode_eq_ok_iff_noIndex w d rfl rfl trivial,
    decode_eq_ok_iff_index w d rfl rfl rfl, decode_eq_ok_iff_noIndex w d rfl rfl trivial,
    decode_eq_ok_iff_index w d rfl rfl trivial, decode_eq_ok_iff_index w d rfl rfl trivial,
    decode_eq_ok_iff_index w d rfl rfl trivial, decode_eq_ok_iff_noIndex w d rfl rfl trivial,
    decode_eq_ok_iff_index w d rfl rfl trivial, decode_eq_ok_iff_noIndex w d rfl rfl trivial,
    decode_eq_ok_iff_noIndex w d rfl rfl trivial⟩

/-! ### The worked encodings (R89) -/

theorem decode_word {i : Instr} {w : W32} {d : W64} (hword : (encode i).word = w) (hwf : i.wellFormed = true)
    (hdata : TakesData d i) : decode ⟨w, d⟩ = .ok i :=
  (decode_eq_ok_iff _ i).2 ⟨hwf, hword, hdata⟩

theorem decode_illegalExamples (d : W64) :
    decode ⟨0x06000000#32, d⟩ = .error .reservedOpcode ∧ decode ⟨0x05010000#32, d⟩ = .error .reservedField ∧
      decode ⟨0x05000001#32, d⟩ = .error .indexNotZero := by
  refine ⟨?_, ?_, ?_⟩ <;>
    simp [decode, decodeOpcode, decodeNoIndex, Packet.rsv_eq, Packet.op_eq, Packet.idx_eq]

/-- Settles O3: each word is the one its line encodes to. -/
theorem workedEncodingsDecode : Obligations.WorkedEncodingsDecode :=
  ⟨decode_word rfl rfl rfl, decode_word rfl rfl rfl, decode_word rfl rfl rfl, decode_word rfl rfl rfl,
    decode_word rfl rfl rfl, decode_word rfl rfl rfl, fun d =>
    ⟨decode_word rfl rfl trivial, decode_word rfl rfl trivial, decode_word rfl rfl trivial,
      decode_word rfl rfl trivial, decode_word rfl rfl trivial, decode_word rfl rfl trivial,
      decode_word rfl rfl trivial, decode_word rfl rfl trivial, decode_word rfl rfl trivial,
      decode_word rfl rfl trivial, decode_word rfl rfl trivial, decode_illegalExamples d⟩⟩

end Sys2Proof.EncodingRules
end

section
/-! PROOFS. The pseudo-instructions (30_encoding.md R88). `run_range` runs a list of encoded commands once what each of
them does is known; the reads leave the state elements, WRCFG fills the table entry by entry, LDS stages. -/

namespace Sys2Proof.PseudoRules

open Sys2Proof Sys2Proof.Machine Sys2Proof.Safety Sys2Proof.PortRules

/-! ### Running a list of commands -/

/-- Whatever stands at the port, `i` takes the state elements of `s` to those of `t` and answers `r`. -/
def Answers (i : Instr) (s t : State) (r : Response) : Prop :=
  i.wellFormed = true ∧ ∀ q d, exec i (atPort s q d) = .next (atPort t q (d ++ [r]))

/-- The response of a command that answers OK with `data` and leaves LCLASS as `s` has it. -/
def okResponse (s : State) (data : W64) : Response := ⟨responseWord statusOk s.lclass, data⟩

theorem statusOf_okResponse (s : State) (data : W64) : statusOf (okResponse s data) = 0 := by
  have hword : ∀ c, (responseWord statusOk c).toNat / 2 ^ 24 = 0 := by decide
  exact hword s.lclass

/-- The step that takes an encoded command. -/
theorem run_command {i : Instr} {s t : State} {r : Response} (h : Answers i s t r) (n : Nat) (q : List HostEvent)
    (d : List Response) :
    Host.Core.run core (n + 1) (atPort s (.command (encode i) :: q) d) =
      Host.Core.run core n (atPort t q (d ++ [r])) := by
  obtain ⟨hwf, he⟩ := h
  have hstep : step (atPort s (.command (encode i) :: q) d) = exec i (atPort s q d) :=
    step_command rfl (EncodingRules.decode_encode hwf)
  exact run_succ (hstep.trans (he q d)) n

/-- The commands `f 0` to `f (n - 1)` take the states `u 0` to `u n` in turn. -/
theorem run_range {n : Nat} {f : Nat → Instr} {u : Nat → State} {r : Nat → Response}
    (h : ∀ k < n, Answers (f k) (u k) (u (k + 1)) (r k)) (q : List HostEvent) (d : List Response) :
    Host.Core.run core n (atPort (u 0) (hostEvents ((List.range n).map f) ++ q) d) =
      .next (atPort (u n) q (d ++ (List.range n).map r)) := by
  induction n generalizing q with
  | zero => exact congrArg (fun e => Host.Outcome.next (atPort (u 0) q e)) (List.append_nil d).symm
  | succ n ih =>
    have hlast : hostEvents ((List.range (n + 1)).map f) ++ q =
        hostEvents ((List.range n).map f) ++ .command (encode (f n)) :: q := by
      simp [hostEvents, List.range_succ]
    rw [hlast, run_add (ih (fun k hk => h k (by omega)) _), run_command (h n (by omega)), List.append_assoc,
      List.range_succ, List.map_append]
    rfl

/-! ### The reads -/

theorem answers_publish {i : Instr} {s : State} {inRange : Bool} {value : W64} (hwf : i.wellFormed = true)
    (he : ∀ q d, exec i (atPort s q d) = publish (atPort s q d) inRange value) (hm : s.mode ≠ .unconfigured)
    (hr : inRange = true) : Answers i s s (okResponse s value) := by
  refine ⟨hwf, fun q d => (he q d).trans ?_⟩
  obtain ⟨hu, -⟩ | ⟨-, hn, -⟩ | ⟨-, -, hok⟩ := publish_eq (atPort s q d) inRange value
  · exact absurd hu hm
  · cases hr.symm.trans hn
  · exact hok

theorem answers_rdsva {s : State} (hm : s.mode ≠ .unconfigured) {k : Nat} (hk : k < 32) :
    Answers (.rdsva k) s s (okResponse s (s.svaAt k)) :=
  answers_publish (decide_eq_true (by omega)) (fun _ _ => rfl) hm (decide_eq_true hk)

theorem answers_rdacc {s : State} (hm : s.mode ≠ .unconfigured) {k : Nat} (hk : k < 3) :
    Answers (.rdacc k) s s (okResponse s (s.y0.at k)) :=
  answers_publish (decide_eq_true (by omega)) (fun _ _ => rfl) hm (decide_eq_true hk)

theorem answers_rdvel {s : State} (hm : s.mode ≠ .unconfigured) {k : Nat} (hk : k < 3) :
    Answers (.rdvel k) s s (okResponse s (s.v.at k)) :=
  answers_publish (decide_eq_true (by omega)) (fun _ _ => rfl) hm (decide_eq_true hk)

theorem answers_rdwin {s : State} (hm : s.mode ≠ .unconfigured) (hw : s.wcap ≤ 65535) {k : Nat} (hk : k < s.wcap) :
    Answers (.rdwin k) s s (okResponse s (s.windowEntry k)) :=
  answers_publish (decide_eq_true (by omega)) (fun _ _ => rfl) hm (decide_eq_true hk)

theorem answers_rdmax {s : State} (hm : s.mode ≠ .unconfigured) :
    Answers .rdmax s s (okResponse s s.max30) :=
  ⟨rfl, fun _ _ => if_neg hm⟩

/-- The response of RDSTAT (44_read_commands.md R186). -/
def statusResponse (s : State) : Response :=
  okResponse s (statusWord s.statusWcap s.errflags s.lclass s.svalid s.mode)

theorem answers_rdstat (s : State) : Answers .rdstat s s (statusResponse s) := ⟨rfl, fun _ _ => rfl⟩

/-- A list of reads answers its values in order, one step each, and leaves everything else as it was. -/
theorem run_reads {n : Nat} {f : Nat → Instr} {v : Nat → W64} {s : State}
    (h : ∀ k < n, Answers (f k) s s (okResponse s (v k)))
    (hp : s.pending = hostEvents ((List.range n).map f)) :
    ∃ rs, Host.Core.run core n s = .next { s with pending := [], delivered := s.delivered ++ rs } ∧
      dataWords rs = (List.range n).map v := by
  refine ⟨(List.range n).map fun k => (okResponse s (v k)), ?_, by simp [dataWords, okResponse]⟩
  have hs : s = atPort s (hostEvents ((List.range n).map f) ++ []) s.delivered := by
    rw [List.append_nil, ← hp]
    rfl
  have hrun := run_range (u := fun _ => s) (r := fun k => (okResponse s (v k))) h [] s.delivered
  rwa [← hs] at hrun

theorem map_svaAt (s : State) : (List.range 32).map s.svaAt = s.sva.entries := by
  refine List.ext_getElem (by simp [s.sva.length_eq]) fun k hk _ => ?_
  have hlt : k < 32 := by simpa using hk
  simp [State.svaAt, hlt, Table.get]

/-! ### SNAPSHOT -/

theorem statusWord_wcap (wcap : BitVec 32) (flags : BitVec 8) (cls valid : BitVec 3) (mode : Mode) :
    (statusWord wcap flags cls valid mode).extractLsb' 32 32 = wcap := by
  apply BitVec.eq_of_getLsbD_eq
  intro i hi
  have hbit : 32 + i - 2 - 3 - 3 - 8 - 16 = i := by omega
  simp only [statusWord, BitVec.getLsbD_extractLsb', BitVec.getLsbD_append, hbit]
  rw [if_neg (by omega), if_neg (by omega), if_neg (by omega), if_neg (by omega), if_neg (by omega), decide_eq_true hi,
    Bool.true_and]

/-- Outside UNCONFIGURED the status word carries the capacity. -/
theorem snapshotLength_statusResponse {s : State} (hm : s.mode ≠ .unconfigured) :
    snapshotLength (statusResponse s) = s.wcap := by
  rw [snapshotLength, statusResponse, okResponse, statusWord_wcap, State.statusWcap, if_neg hm, State.wcap]

/-- SNAPSHOT from a state of the invariant, whose capacity fits the index of RDWIN. -/
theorem run_snapshot {s : State} (hs : Inv s) (hm : s.mode ≠ .unconfigured)
    (hp : s.pending = hostEvents snapshotHead) :
    ∃ status rs,
      Host.Core.run core 1 s = .next { s with pending := [], delivered := s.delivered ++ [status] } ∧
      snapshotLength status = s.wcap ∧
      Host.Core.run core s.wcap
          { s with pending := hostEvents (snapshotReads status), delivered := s.delivered ++ [status] } =
        .next { s with pending := [], delivered := s.delivered ++ status :: rs } ∧
      snapshotResult (status :: rs) = (List.range s.wcap).map s.windowEntry := by
  obtain ⟨-, hle, hmax⟩ := WindowRules.window_bounds hs hm
  have hlen := snapshotLength_statusResponse hm
  have hstatus := run_command (answers_rdstat s) 0 [] s.delivered
  obtain ⟨rs, hrun, hdata⟩ := run_reads (n := s.wcap) (f := .rdwin) (v := s.windowEntry)
    (s := atPort s (hostEvents (snapshotReads (statusResponse s))) (s.delivered ++ [statusResponse s]))
    (fun k hk => answers_rdwin hm (by omega) hk) (by rw [← hlen]; rfl)
  refine ⟨statusResponse s, rs, ?_, hlen, ?_, hdata⟩
  · rwa [show HostEvent.command (encode .rdstat) :: [] = s.pending from hp.symm] at hstatus
  · rwa [atPort, List.append_assoc] at hrun

/-! ### SAMPLE -/

theorem answers_lds {s : State} (hm : s.mode ≠ .unconfigured) (k : Fin 3) (w : W64) :
    Answers (.lds k w) s (s.stage k w) (okResponse s 0#64) := by
  have hk := k.isLt
  exact ⟨decide_eq_true (by omega), fun _ _ => (if_neg hm).trans (dif_pos hk)⟩

/-- The three LDS of SAMPLE stage a complete sample, whatever was staged before (41_signal_conditioner.md R130). -/
theorem stage_sample (s : State) (x y z : W64) :
    ((s.stage 0 x).stage 1 y).stage 2 z = { s with sx := ⟨x, y, z⟩, svalid := 0b111#3 } := by
  have hvalid : ∀ v : BitVec 3, setValid (setValid (setValid v 0) 1) 2 = 0b111#3 := by decide
  rw [← hvalid s.svalid]
  rfl

theorem run_sample {s : State} (x y z : W64) (hm : s.mode ≠ .unconfigured)
    (hp : s.pending = hostEvents (sample x y z)) :
    ∃ (t : State) (rs : List Response) (r : Response), Host.Core.run core 4 s = .next t ∧
      t.pending = [] ∧ t.delivered = s.delivered ++ rs ++ [r] ∧ sampleResult (rs ++ [r]) = some r ∧
      (∀ q ∈ rs, statusOf q = 0) ∧ rs.length = 3 ∧
      exec .update { s with sx := ⟨x, y, z⟩, svalid := 0b111#3, pending := [], delivered := s.delivered ++ rs } =
        .next t := by
  obtain ⟨t, r, -, -, -, hupdate⟩ := exec_answersOnce .update (((s.stage 0 x).stage 1 y).stage 2 z)
  have hrun := calc Host.Core.run core 4 (atPort s (hostEvents (sample x y z)) s.delivered)
    _ = Host.Core.run core 3 (atPort (s.stage 0 x) (hostEvents [.lds 1 y, .lds 2 z, .update]) _) :=
      run_command (answers_lds hm 0 x) 3 _ _
    _ = Host.Core.run core 2 (atPort ((s.stage 0 x).stage 1 y) (hostEvents [.lds 2 z, .update]) _) :=
      run_command (answers_lds (s := s.stage 0 x) hm 1 y) 2 _ _
    _ = Host.Core.run core 1 (atPort (((s.stage 0 x).stage 1 y).stage 2 z) (hostEvents [.update]) _) :=
      run_command (answers_lds (s := (s.stage 0 x).stage 1 y) hm 2 z) 1 _ _
    _ = .next (atPort t [] (s.delivered ++ List.replicate 3 (okResponse s 0#64) ++ [r])) :=
      (run_command ⟨rfl, hupdate⟩ 0 [] _).trans (by simp [Host.Core.run, okResponse])
  rw [← hp] at hrun
  rw [stage_sample] at hupdate
  exact ⟨_, List.replicate 3 (okResponse s 0#64), r, hrun, rfl, rfl, List.getLast?_concat,
    fun q hq => List.eq_of_mem_replicate hq ▸ statusOf_okResponse s 0#64, rfl, hupdate _ _⟩

/-! ### CONSTRUCT -/

theorem status_eq_ok_iff (r : Response) : r.word.extractLsb' 24 8 = statusOk ↔ statusOf r = 0 := by
  have := r.word.isLt
  rw [← BitVec.toNat_inj, BitVec.extractLsb'_toNat, Nat.shiftRight_eq_div_pow, statusOf, statusOk, BitVec.toNat_ofNat]
  omega

/-- Responses with status OK are passed over. -/
theorem constructResult_append {rs l : List Response} (h : ∀ q ∈ rs, statusOf q = 0) (hl : l ≠ []) :
    constructResult (rs ++ l) = constructResult l := by
  induction rs with
  | nil => rfl
  | cons q rs ih =>
    obtain ⟨hq, hrs⟩ := List.forall_mem_cons.1 h
    obtain ⟨r, l', hcons⟩ := List.exists_cons_of_ne_nil (List.append_ne_nil_of_right_ne_nil rs hl)
    rw [List.cons_append, ← ih hrs, hcons, constructResult, if_pos ((status_eq_ok_iff q).2 hq)]

theorem constructResult_of_error {r : Response} (h : statusOf r ≠ 0) (rest : List Response) :
    constructResult (r :: rest) = some r := by
  cases rest with
  | nil => rfl
  | cons r' rest => rw [constructResult, if_neg fun hok => h ((status_eq_ok_iff r).1 hok)]

/-- `s` after the first `k` WRCFG of CONSTRUCT. -/
def loadedUpTo (s : State) (table : Table W64 264) (k : Nat) : State :=
  { s with
    cfg := Table.ofFn fun i => if i.val < k then table.get i else s.cfg.get i
    cw := Table.ofFn fun i => if i.val < k then true else s.cw.get i }

theorem loadedUpTo_zero (s : State) (table : Table W64 264) : loadedUpTo s table 0 = s := by
  have hcfg : (Table.ofFn fun i => if i.val < 0 then table.get i else s.cfg.get i) = s.cfg :=
    Table.ext fun i => by simp
  have hcw : (Table.ofFn fun i => if i.val < 0 then true else s.cw.get i) = s.cw := Table.ext fun i => by simp
  rw [loadedUpTo, hcfg, hcw]

/-- `s` with the whole table written. -/
def loaded (s : State) (table : Table W64 264) : State := { s with cfg := table, cw := Table.fill 264 true }

theorem loadedUpTo_all (s : State) (table : Table W64 264) : loadedUpTo s table 264 = loaded s table := by
  have hcfg : (Table.ofFn fun i => if i.val < 264 then table.get i else s.cfg.get i) = table :=
    Table.ext fun i => by simp
  have hcw : (Table.ofFn fun i => if i.val < 264 then true else s.cw.get i) = Table.fill 264 true :=
    Table.ext fun i => by simp
  rw [loadedUpTo, loaded, hcfg, hcw]

/-- A bank whose entries below `k` come from `g` gets its next one. -/
theorem ofFn_set {α : Type} {n : Nat} (g f : Fin n → α) (k : Fin n) :
    (Table.ofFn fun i => if i.val < k.val then g i else f i).set k (g k) =
      Table.ofFn fun i => if i.val < k.val + 1 then g i else f i := by
  refine Table.ext fun i => ?_
  rw [Table.get_set, Table.get_ofFn, Table.get_ofFn]
  by_cases hik : i = k
  · simp [hik]
  · have hne : i.val ≠ k.val := fun h => hik (Fin.ext h)
    have hlt : i.val < k.val + 1 ↔ i.val < k.val := by omega
    simp only [hik, hlt, if_false]

theorem writeCfg_loadedUpTo (s : State) (table : Table W64 264) (k : Fin 264) :
    (loadedUpTo s table k).writeCfg k (table.get k) = loadedUpTo s table (k + 1) := by
  simp only [loadedUpTo, State.writeCfg, ofFn_set, ofFn_set fun _ => true]

/-- WRCFG of entry `k` of the table. -/
def loadEntry (table : Table W64 264) (k : Nat) : Instr := .wrcfg k (table.entries.getD k 0#64)

theorem construct_eq (table : Table W64 264) :
    construct table = (List.range 264).map (loadEntry table) ++ [.init] := by
  refine congrArg (· ++ [Instr.init]) (List.ext_getElem (by simp [table.length_eq]) fun k hk _ => ?_)
  have hlt : k < table.entries.length := by simpa using hk
  simp [loadEntry, hlt]

theorem answers_loadEntry {s : State} (hm : s.mode = .unconfigured) (table : Table W64 264) {k : Nat} (hk : k < 264) :
    Answers (loadEntry table k) (loadedUpTo s table k) (loadedUpTo s table (k + 1)) (okResponse s 0#64) := by
  have hentry : table.entries.getD k 0#64 = table.get ⟨k, hk⟩ := List.getD_eq_getElem _ _ _
  rw [loadEntry, hentry, ← writeCfg_loadedUpTo s table ⟨k, hk⟩]
  exact ⟨decide_eq_true (by omega), fun _ _ => (if_pos hm).trans (dif_pos hk)⟩

/-- INIT in UNCONFIGURED succeeds when the table passes (40_configuration.md R113). -/
theorem answers_init {s : State} (hm : s.mode = .unconfigured) (h : TablePasses s) :
    Answers .init s s.createInstance ⟨0x00000000#32, 0#64⟩ := by
  have hword : 0x00000000#32 = responseWord statusOk 0#3 := rfl
  rw [hword]
  exact ⟨rfl, fun _ _ => (if_pos hm).trans (if_pos ((StateRules.cfgValid_iff s).2 h))⟩

/-- INIT in UNCONFIGURED with class 0 is refused when the table does not pass. -/
theorem answers_init_refused {s : State} (hm : s.mode = .unconfigured) (hclass : s.lclass = 0#3)
    (h : ¬ TablePasses s) : Answers .init s (s.raise .invalidConfiguration) ⟨0x01000000#32, 0#64⟩ := by
  have hword : 0x01000000#32 = responseWord ErrorCode.invalidConfiguration.code s.lclass := by
    rw [hclass]
    rfl
  rw [hword]
  exact ⟨rfl, fun _ _ => (if_pos hm).trans (if_neg fun hc => h ((StateRules.cfgValid_iff s).1 hc))⟩

/-- The 264 WRCFG of CONSTRUCT load the table, each with status OK, and INIT runs on the loaded table. -/
theorem run_construct {s t : State} {r : Response} {table : Table W64 264} (hm : s.mode = .unconfigured)
    (hp : s.pending = hostEvents (construct table)) (hinit : Answers .init (loaded s table) t r) :
    Host.Core.run core 265 s =
      .next (atPort t [] (s.delivered ++ List.replicate 264 (okResponse s 0#64) ++ [r])) := by
  have hrun := run_range (u := loadedUpTo s table) (r := fun _ => okResponse s 0#64)
    (fun k hk => answers_loadEntry hm table hk) [.command (encode .init)] s.delivered
  have hport : hostEvents ((List.range 264).map (loadEntry table)) ++ [.command (encode .init)] = s.pending := by
    rw [hp, construct_eq, hostEvents, hostEvents, List.map_append]
    rfl
  rw [hport, loadedUpTo_zero, loadedUpTo_all, List.map_const', List.length_range] at hrun
  exact (run_add hrun 1).trans (run_command hinit 0 [] _)

/-- Settles O22. -/
theorem constructCreatesInstance : Obligations.ConstructCreatesInstance := by
  intro s table hm hclass hp
  have hok : okResponse s 0#64 = ⟨0x00000000#32, 0#64⟩ := by
    rw [okResponse, hclass]
    rfl
  have hcw : ∀ i, (loaded s table).cw.get i = true := Table.get_fill true
  by_cases h : TablePasses (loaded s table)
  · have hrun := run_construct hm hp (answers_init hm h)
    rw [hok, List.append_assoc, ← List.replicate_succ'] at hrun
    exact ⟨_, hrun, rfl, rfl, hcw, fun _ => ⟨rfl, rfl, rfl⟩, fun hn => absurd h hn⟩
  · have hrun := run_construct hm hp (answers_init_refused hm hclass h)
    rw [hok] at hrun
    exact ⟨_, hrun, rfl, rfl, hcw, fun hpass => absurd hpass h, fun _ => ⟨hm, rfl⟩⟩

/-- Settles O60. -/
theorem pseudoInstructionResults : Obligations.PseudoInstructionResults := by
  refine ⟨fun s hm hp => ?_, fun s hm hp => ?_, fun s hm hp => ?_, fun s hm hp => ?_,
    fun s hs hm hp => run_snapshot hs hm hp, fun s x y z hm hp => run_sample x y z hm hp,
    fun rs r h => constructResult_append h (List.cons_ne_nil r []),
    fun rs rest r h hr =>
      (constructResult_append h (List.cons_ne_nil r rest)).trans (constructResult_of_error hr rest)⟩
  · rw [← map_svaAt]
    exact run_reads (fun _ hk => answers_rdsva hm hk) hp
  · exact run_reads (n := 3) (v := s.y0.at) (fun _ hk => answers_rdacc hm hk) hp
  · exact run_reads (n := 3) (v := s.v.at) (fun _ hk => answers_rdvel hm hk) hp
  · exact run_reads (n := 1) (v := fun _ => s.max30) (fun _ _ => answers_rdmax hm) hp

end Sys2Proof.PseudoRules
end

section
/-! PROOFS. The configuration and control commands (40_configuration.md R110 to R115). Each outcome of a command is one
equation for `exec`, in the words of Safety.lean; the rules of NOP, RESET, WRCFG and INIT are read off these. -/

namespace Sys2Proof.ConfigurationRules

open Sys2Proof Sys2Proof.Machine Sys2Proof.Safety Sys2Proof.EncodingRules

/-! ### The words of the commands -/

/-- The word of a command as a number: the opcode above the index (30_encoding.md R87). -/
theorem decode_ofNat {i : Instr} {n : Nat} {d : W64} (hn : n = (opcode i).toNat * 2 ^ 24 + index i)
    (hwf : i.wellFormed = true) (hdata : TakesData d i) : decode ⟨BitVec.ofNat 32 n, d⟩ = .ok i := by
  refine decode_word ?_ hwf hdata
  rw [hn, encode_word, ← commandWord_toNat _ ((wellFormed_iff i).1 hwf), BitVec.ofNat_toNat, BitVec.setWidth_eq]

/-! ### The state tests -/

theorem beforeInstance_of_unconfigured {s : State} (hm : s.mode = .unconfigured) (k : Result) :
    beforeInstance s k = k := if_pos hm

theorem beforeInstance_of_instance {s : State} (hm : s.mode ≠ .unconfigured) (k : Result) :
    beforeInstance s k = .next (refusedWith s 4) :=
  (if_neg hm).trans (congrArg Host.Outcome.next (s.raise_eq .badState))

theorem inInstance_of_unconfigured {s : State} (hm : s.mode = .unconfigured) (k : Result) :
    inInstance s k = .next (refusedWith s 4) :=
  (if_pos hm).trans (congrArg Host.Outcome.next (s.raise_eq .badState))

/-! ### INIT -/

theorem exec_init_of_not_tablePasses {s : State} (hm : s.mode = .unconfigured) (h : ¬ TablePasses s) :
    exec .init s = .next (refusedWith s 1) := by
  rw [← StateRules.cfgValid_iff] at h
  calc exec .init s
    _ = _ := beforeInstance_of_unconfigured hm _
    _ = .next (s.raise .invalidConfiguration) := if_neg h
    _ = .next (refusedWith s 1) := congrArg _ (s.raise_eq _)

theorem exec_init_of_tablePasses {s : State} (hm : s.mode = .unconfigured) (h : TablePasses s) :
    exec .init s = .next (answered s.createInstance 0#64) := by
  rw [← StateRules.cfgValid_iff] at h
  calc exec .init s
    _ = _ := beforeInstance_of_unconfigured hm _
    _ = .next (s.createInstance.respond statusOk 0#64) := if_pos h
    _ = .next (answered s.createInstance 0#64) := congrArg _ (State.respond_ok_eq _ _)

/-- A new instance finds its window zeroed up to WCAP, and what lies beyond as it was (R115). -/
theorem createInstance_win_read (s : State) (a : Nat) :
    s.createInstance.win.read a = if a < (s.cfg.get 7).toNat % 2 ^ 32 then Config.posZero else s.win.read a := by
  rw [← StateRules.wcap_eq]
  exact Memory.read_clearBelow s.win s.wcap a

/-- Settles O21: the state test, the five tests of the table as `CfgValid()`, and the instance that INIT creates. -/
theorem initRule : Obligations.InitRule :=
  ⟨fun _ => decode_word rfl rfl trivial, fun s =>
    ⟨fun hm => beforeInstance_of_instance hm _, exec_init_of_not_tablePasses, fun hm h =>
      ⟨_, exec_init_of_tablePasses hm h, rfl, createInstance_win_read s⟩⟩⟩

/-! ### NOP -/

/-- Settles O18. -/
theorem nopRule : Obligations.NopRule :=
  ⟨fun _ => decode_word rfl rfl trivial, fun s => congrArg Host.Outcome.next (s.respond_ok_eq 0#64)⟩

/-! ### RESET -/

theorem exec_reset (s : State) : exec .reset s = .next (answered s.toReset 0#64) :=
  congrArg Host.Outcome.next (s.toReset.respond_ok_eq 0#64)

/-- Without written entries the first test of R114 fails. -/
theorem not_tablePasses_of_atResetValues {s : State} (h : AtResetValues s) : ¬ TablePasses s := by
  rintro ⟨hwritten, -⟩
  obtain ⟨-, -, -, -, hcw, -⟩ := h
  exact Bool.false_ne_true ((hcw 0).symm.trans (hwritten 0))

theorem exec_rdmax_of_unconfigured {s : State} (hm : s.mode = .unconfigured) :
    exec .rdmax s = .next (refusedWith s 4) := inInstance_of_unconfigured hm _

/-- Settles O19: RESET and hardware reset both go through `State.toReset`, and at the reset values no entry is written
and no instance exists. -/
theorem resetCommandRule : Obligations.ResetCommandRule := by
  refine ⟨fun _ => decode_word rfl rfl trivial, fun s => ?_⟩
  have hreset : AtResetValues (answered s.toReset 0#64) := StateRules.atResetValues_toReset s
  have hm : (answered s.toReset 0#64).mode = .unconfigured := rfl
  exact ⟨_, exec_reset s, hreset, rfl, rfl, rfl, ⟨_, PortRules.step_hardwareReset rfl⟩,
    exec_init_of_not_tablePasses hm (not_tablePasses_of_atResetValues hreset), exec_rdmax_of_unconfigured hm⟩

/-! ### WRCFG -/

theorem decode_wrcfg {idx : Nat} (data : W64) (h : idx < 65536) :
    decode ⟨BitVec.ofNat 32 (0x02000000 + idx), data⟩ = .ok (.wrcfg idx data) :=
  decode_ofNat (by simp [opcode, index]) (decide_eq_true h) rfl

theorem exec_wrcfg_of_le {s : State} {idx : Nat} {data : W64} (hm : s.mode = .unconfigured) (h : 264 ≤ idx) :
    exec (.wrcfg idx data) s = .next (refusedWith s 5) :=
  calc exec (.wrcfg idx data) s
    _ = _ := beforeInstance_of_unconfigured hm _
    _ = .next (s.raise .badIndex) := dif_neg (Nat.not_lt.2 h)
    _ = .next (refusedWith s 5) := congrArg _ (s.raise_eq _)

theorem exec_wrcfg_of_lt {s : State} {idx : Nat} {data : W64} (hm : s.mode = .unconfigured) (h : idx < 264) :
    exec (.wrcfg idx data) s = .next (answered (s.writeCfg ⟨idx, h⟩ data) 0#64) :=
  calc exec (.wrcfg idx data) s
    _ = _ := beforeInstance_of_unconfigured hm _
    _ = .next ((s.writeCfg ⟨idx, h⟩ data).respond statusOk 0#64) := dif_pos h
    _ = .next (answered (s.writeCfg ⟨idx, h⟩ data) 0#64) := congrArg _ (State.respond_ok_eq _ _)

/-- The element a bank holds after a write, by the numbers of the indices. -/
theorem get_set_val {α : Type} {n : Nat} (t : Table α n) (i j : Fin n) (a : α) :
    (t.set i a).get j = if j.val = i.val then a else t.get j := by
  simp only [Table.get_set, Fin.ext_iff]

/-- Settles O20: the state test, the index test, and the write of one entry and one flag. -/
theorem wrcfgRule : Obligations.WrcfgRule := by
  refine fun s idx data hidx => ⟨decode_wrcfg data hidx, fun hm => beforeInstance_of_instance hm _,
    exec_wrcfg_of_le, fun hm h => ?_⟩
  exact ⟨_, exec_wrcfg_of_lt hm h, rfl, fun j => get_set_val s.cfg ⟨idx, h⟩ j data,
    fun j => get_set_val s.cw ⟨idx, h⟩ j true⟩

end Sys2Proof.ConfigurationRules
end

section
/-! PROOFS. Sample delivery and the tick as a whole (41_signal_conditioner.md R130 to R132). Each outcome of LDS and UPDATE
is one equation for `exec`, in the words of Safety.lean; `exec_update_of_not_finite` is the one way a stage of the tick
ends in NumericFault. -/

namespace Sys2Proof.SampleRules

open Sys2Proof Sys2Proof.Machine Sys2Proof.Safety

/-! ### The state test -/

theorem inInstance_of_instance {s : State} (hm : s.mode ≠ .unconfigured) (k : Result) : inInstance s k = k := if_neg hm

/-! ### LDS -/

theorem decode_lds {k : Nat} (data : W64) (h : k < 65536) :
    decode ⟨BitVec.ofNat 32 (0x04000000 + k), data⟩ = .ok (.lds k data) :=
  ConfigurationRules.decode_ofNat (by simp [EncodingRules.opcode, EncodingRules.index]) (decide_eq_true h) rfl

theorem exec_lds_of_le {s : State} {k : Nat} {data : W64} (hm : s.mode ≠ .unconfigured) (h : 3 ≤ k) :
    exec (.lds k data) s = .next (refusedWith s 2) :=
  calc exec (.lds k data) s
    _ = _ := inInstance_of_instance hm _
    _ = .next (s.raise .invalidInput) := dif_neg (Nat.not_lt.2 h)
    _ = .next (refusedWith s 2) := congrArg _ (s.raise_eq _)

theorem exec_lds_of_lt {s : State} {k : Nat} {data : W64} (hm : s.mode ≠ .unconfigured) (h : k < 3) :
    exec (.lds k data) s = .next (answered (s.stage ⟨k, h⟩ data) 0#64) :=
  calc exec (.lds k data) s
    _ = _ := inInstance_of_instance hm _
    _ = .next ((s.stage ⟨k, h⟩ data).respond statusOk 0#64) := dif_pos h
    _ = .next (answered (s.stage ⟨k, h⟩ data) 0#64) := congrArg _ (State.respond_ok_eq _ _)

/-- Marking a component valid sets its own bit of SVALID alone (10_state.md R23). -/
theorem getLsbD_setValid (valid : BitVec 3) {k m : Nat} (hk : k < 3) (hm : m < 3) :
    (setValid valid k).getLsbD m = if m = k then true else valid.getLsbD m := by
  have hbit : ∀ k m : Fin 3, (1#3 <<< k.val).getLsbD m.val = decide (m.val = k.val) := by decide
  rw [setValid, BitVec.getLsbD_or, hbit ⟨k, hk⟩ ⟨m, hm⟩]
  by_cases h : m = k
  · rw [if_pos h, decide_eq_true h, Bool.or_true]
  · rw [if_neg h, decide_eq_false h, Bool.or_false]

/-- Settles O24: the state test, the index test, and the one component and bit that are staged. -/
theorem ldsRule : Obligations.LdsRule := by
  refine fun s k data hk => ⟨decode_lds data hk, fun hm => ConfigurationRules.inInstance_of_unconfigured hm _,
    exec_lds_of_le, fun hm h => ⟨_, exec_lds_of_lt hm h, rfl, fun m => ?_, fun m => getLsbD_setValid s.svalid h⟩⟩
  simp only [answered, State.stage_sx, Vec3.get_set, Fin.ext_iff]

/-! ### UPDATE refused (R131 steps 1 and 3) -/

theorem exec_update_of_not_sampleReady {s : State} (hm : s.mode ≠ .unconfigured)
    (h : ¬ (s.svalid = 0b111#3 ∧ s.sx.allFinite = true)) :
    exec .update s = .next (refusedWith { s with svalid := 0b000#3 } 2) := by
  rw [← StateRules.sampleReady_iff] at h
  calc exec .update s
    _ = _ := inInstance_of_instance hm _
    _ = .next (s.unstage.raise .invalidInput) := if_neg h
    _ = .next (refusedWith s.unstage 2) := congrArg _ (State.raise_eq _ _)

theorem exec_update_of_not_tickAccepted {s : State} (ha : Admitted s) (h : ¬ TickAccepted s) :
    exec .update s = .next (refusedWith { s with svalid := 0b000#3 } 6) := by
  have ⟨hm, hready⟩ := ha
  have hf : ¬ s.tick.allFinite = true := fun hf => h ⟨ha, hf⟩
  calc exec .update s
    _ = _ := inInstance_of_instance hm _
    _ = _ := if_pos ((StateRules.sampleReady_iff s).2 hready)
    _ = .next (s.unstage.raise .numericFault) := if_neg hf
    _ = .next (refusedWith s.unstage 6) := congrArg _ (State.raise_eq _ _)

/-- A value that the numeric check covers and that is not finite ends an admitted tick (60_exceptions.md R227). -/
theorem exec_update_of_not_finite {s : State} {w : W64} (ha : Admitted s) (hw : isFinite w = false)
    (hcheck : s.tick.allFinite = true → isFinite w = true) :
    exec .update s = .next (refusedWith { s with svalid := 0b000#3 } 6) :=
  exec_update_of_not_tickAccepted ha fun ⟨_, hf⟩ => Bool.false_ne_true (hw.symm.trans (hcheck hf))

/-- Settles O25: the state test, the two admission tests and the numeric check. -/
theorem updateRefusals : Obligations.UpdateRefusals := by
  refine fun s => ⟨fun hm => ConfigurationRules.inInstance_of_unconfigured hm _, fun hm hv => ?_,
    fun hm _ ⟨k, hk⟩ => ?_, exec_update_of_not_tickAccepted⟩
  · exact exec_update_of_not_sampleReady hm fun ⟨hvalid, _⟩ => hv hvalid
  · refine exec_update_of_not_sampleReady hm fun ⟨_, hsx⟩ => ?_
    exact Bool.false_ne_true (hk.symm.trans ((Vec3.allFinite_iff s.sx).1 hsx k))

/-! ### UPDATE accepted (R131 step 4) -/

/-- Settles O26: the commit, with the reference as R132 selects it and the answer as R169 forms it. -/
theorem updateCommitsTick : Obligations.UpdateCommitsTick := by
  refine ⟨fun _ => EncodingRules.decode_word rfl rfl trivial, fun s ha =>
    ⟨_, WindowRules.exec_update_of_tickAccepted ha, ?_⟩⟩
  rw [← StateRules.tickRef_eq]
  exact State.respondClass_eq _

/-! ### The reference (R132) -/

theorem tickRef_get (s : State) (k : Fin 3) :
    s.tickRef.get k = if s.mode = .uninitialized then s.sx.get k else s.ref.get k := by
  rw [StateRules.tickRef_eq]
  split <;> rfl

theorem offsetRemove_get (r ref : Vec3) (k : Fin 3) : (offsetRemove r ref).get k = fsub (r.get k) (ref.get k) := by
  fin_cases k <;> rfl

theorem tickX0_get (s : State) (k : Fin 3) : s.tickX0.get k = fsub (s.sx.get k) (s.tickRef.get k) :=
  offsetRemove_get _ _ k

/-- An UPDATE that raises an error leaves REF and STATE. -/
theorem ref_mode_of_not_tickAccepted {s t : State} (hn : ¬ TickAccepted s) (h : exec .update s = .next t) :
    t.ref = s.ref ∧ t.mode = s.mode := by
  cases StateRules.exec_completes h with
  | answered | refused | dropped => exact ⟨rfl, rfl⟩
  | ticked ha => exact absurd ha hn

/-- Settles O27. -/
theorem referenceCaptureRule : Obligations.ReferenceCaptureRule := by
  refine ⟨fun s ha => ⟨_, WindowRules.exec_update_of_tickAccepted ha, rfl, tickRef_get s, tickX0_get s⟩,
    fun s hn => ?_⟩
  obtain ⟨t, -, he, -⟩ := PortRules.exec_answersOnce .update s
  exact ⟨t, he, ref_mode_of_not_tickAccepted hn he⟩

end Sys2Proof.SampleRules
end

section
/-! PROOFS. The stages of the signal conditioner (41_signal_conditioner.md R133 to R138): each stage by component, what an
output that is not finite ends in, that no command depends on X2, and that the tick reads component 2 no further than
the integrator. -/

namespace Sys2Proof.ConditionerRules

open Sys2Proof Sys2Proof.Machine Sys2Proof.Safety Sys2Proof.SampleRules

/-! ### The numeric check (R131 step 3) -/

/-- The numeric check covers every component of the three stages (60_exceptions.md R227). -/
theorem stages_finite {s : State} (h : s.tick.allFinite = true) (k : Fin 3) :
    isFinite (s.tickX0.get k) = true ∧ isFinite (s.tickY0.get k) = true ∧ isFinite (s.tickV.get k) = true := by
  obtain ⟨hx0, hy0, hv, -⟩ := (Tick.allFinite_iff s.tick).1 h
  exact ⟨(Vec3.allFinite_iff _).1 hx0 k, (Vec3.allFinite_iff _).1 hy0 k, (Vec3.allFinite_iff _).1 hv k⟩

/-! ### The offset (R133) -/

/-- A sample that stands at its reference has offset +0.0; on the first tick it is its own reference. -/
theorem tickX0_get_eq_posZero {s : State} {k : Fin 3} (hsx : s.sx.allFinite = true)
    (h : s.mode = .uninitialized ∨ s.sx.get k = s.ref.get k) : s.tickX0.get k = Config.posZero := by
  have href : s.tickRef.get k = s.sx.get k := by
    rw [tickRef_get]
    exact ite_eq_left_iff.2 fun hm => (h.resolve_left hm).symm
  rw [tickX0_get, href, fsub_self ((Vec3.allFinite_iff s.sx).1 hsx k)]

/-- Settles O29. -/
theorem offsetRemovalRule : Obligations.OffsetRemovalRule := by
  refine ⟨fun s ha => ?_, fun s k ha hm hk => ?_⟩
  · have ⟨⟨_, _, hsx⟩, _⟩ := ha
    exact ⟨_, WindowRules.exec_update_of_tickAccepted ha, fun k => ⟨tickX0_get s k, tickX0_get_eq_posZero hsx⟩⟩
  · refine exec_update_of_not_finite ha hk fun hf => ?_
    obtain ⟨hx0, -⟩ := stages_finite hf k
    rwa [tickX0_get, tickRef_get, hm, if_neg nofun] at hx0

/-! ### The filter (R134, R135) -/

theorem tickY0_get (s : State) (k : Fin 3) :
    s.tickY0.get k = highPass1 s.hpb0 s.hpb1 s.hpb2 s.hpa1 s.hpa2
      (s.tickX0.get k) (s.x0.get k) (s.x1.get k) (s.y0.get k) (s.y1.get k) := by
  fin_cases k <;> rfl

/-- Settles O31: the difference equation is `highPass1` on the entries that R25 names. -/
theorem highPassRule : Obligations.HighPassRule := by
  refine ⟨fun s ha => ⟨_, WindowRules.exec_update_of_tickAccepted ha, rfl, tickY0_get s⟩, fun s k ha hk => ?_⟩
  refine exec_update_of_not_finite ha hk fun hf => ?_
  obtain ⟨-, hy0, -⟩ := stages_finite hf k
  exact hy0

/-! ### The offset history (R134) -/

/-- The state with another X2. -/
def withX2 (s : State) (u : Vec3) : State := { s with x2 := u }

/-- A meaning whose answer does not depend on X2, but for X2 itself. -/
def BlindToX2 (k : State → Result) : Prop :=
  ∀ s t u, k s = .next t → ∃ x, k (withX2 s u) = .next (withX2 t x)

theorem blindToX2_next {f : State → State} (hf : ∀ s u, ∃ x, f (withX2 s u) = withX2 (f s) x) :
    BlindToX2 fun s => .next (f s) := by
  intro s t u h
  cases h
  obtain ⟨x, hx⟩ := hf s u
  exact ⟨x, congrArg _ hx⟩

/-- An update that leaves X2. -/
theorem blindToX2_keep {f : State → State} (hf : ∀ s u, f (withX2 s u) = withX2 (f s) u) :
    BlindToX2 fun s => .next (f s) := blindToX2_next fun s u => ⟨u, hf s u⟩

theorem BlindToX2.ite {c : State → Prop} [DecidablePred c] {k l : State → Result} (hc : ∀ s u, c (withX2 s u) = c s)
    (hk : BlindToX2 k) (hl : BlindToX2 l) : BlindToX2 fun s => if c s then k s else l s := by
  intro s t u
  by_cases h : c s
  · simpa only [hc, h, if_true] using hk s t u
  · simpa only [hc, h, if_false] using hl s t u

/-- A test of the operand, the same in every state. -/
theorem BlindToX2.dite {p : Prop} [Decidable p] {k : p → State → Result} {l : State → Result}
    (hk : ∀ h, BlindToX2 (k h)) (hl : BlindToX2 l) : BlindToX2 fun s => if h : p then k h s else l s := by
  by_cases h : p
  · simpa only [h, dif_pos] using hk h
  · simpa only [h, dif_neg, not_false_eq_true] using hl

theorem blindToX2_raise (e : ErrorCode) : BlindToX2 fun s => .next (s.raise e) := blindToX2_keep fun _ _ => rfl

theorem blindToX2_beforeInstance {k : State → Result} (hk : BlindToX2 k) :
    BlindToX2 fun s => beforeInstance s (k s) := .ite (fun _ _ => rfl) hk (blindToX2_raise _)

theorem blindToX2_inInstance {k : State → Result} (hk : BlindToX2 k) : BlindToX2 fun s => inInstance s (k s) :=
  .ite (fun _ _ => rfl) (blindToX2_raise _) hk

theorem blindToX2_respond {data : State → W64} (hd : ∀ s u, data (withX2 s u) = data s) :
    BlindToX2 fun s => .next (s.respond statusOk (data s)) :=
  blindToX2_keep fun s u => by
    simp only [hd]
    rfl

theorem blindToX2_publish {inRange : State → Bool} {value : State → W64}
    (hr : ∀ s u, inRange (withX2 s u) = inRange s) (hv : ∀ s u, value (withX2 s u) = value s) :
    BlindToX2 fun s => publish s (inRange s) (value s) :=
  blindToX2_inInstance
    (.ite (fun s u => congrArg (· = true) (hr s u)) (blindToX2_respond hv) (blindToX2_raise _))

/-- The tick is computed from X0 and X1; the commit drops the old X2. -/
theorem blindToX2_execUpdate : BlindToX2 execUpdate := by
  have hraise (e : ErrorCode) : BlindToX2 fun s => .next (s.unstage.raise e) := blindToX2_keep fun _ _ => rfl
  have hcommit : BlindToX2 fun s => .next (s.unstage.commit s.tick).respondClass :=
    blindToX2_next fun s _ => ⟨s.x1, rfl⟩
  exact blindToX2_inInstance (.ite (fun _ _ => rfl) (.ite (fun _ _ => rfl) hcommit (hraise _)) (hraise _))

/-- No command reads X2. -/
theorem exec_blindToX2 (i : Instr) : BlindToX2 (exec i) := by
  cases i with
  | nop | rdstat => exact blindToX2_respond fun _ _ => rfl
  | reset => exact blindToX2_next fun _ _ => ⟨Vec3.zero, rfl⟩
  | wrcfg idx data =>
    exact blindToX2_beforeInstance (.dite (fun _ => blindToX2_keep fun _ _ => rfl) (blindToX2_raise _))
  | init =>
    exact blindToX2_beforeInstance
      (.ite (fun _ _ => rfl) (blindToX2_next fun _ _ => ⟨Vec3.zero, rfl⟩) (blindToX2_raise _))
  | lds idx data =>
    exact blindToX2_inInstance (.dite (fun _ => blindToX2_keep fun _ _ => rfl) (blindToX2_raise _))
  | update => exact blindToX2_execUpdate
  | rdsva | rdacc | rdvel | rdwin => exact blindToX2_publish (fun _ _ => rfl) fun _ _ => rfl
  | rdmax | rdclass => exact blindToX2_inInstance (blindToX2_respond fun _ _ => rfl)

/-- Settles O30: the commit takes all three places from the values before it, and no command reads the last. -/
theorem offsetHistoryRule : Obligations.OffsetHistoryRule :=
  ⟨fun s ha => ⟨_, WindowRules.exec_update_of_tickAccepted ha, rfl, rfl, tickX0_get s, tickY0_get s⟩, exec_blindToX2⟩

/-! ### The integrator (R137) -/

theorem tickV_get (s : State) (k : Fin 3) :
    s.tickV.get k = integrate1 s.dt (s.v.get k) (s.y0.get k) (s.tickY0.get k) := by
  fin_cases k <;> rfl

/-- Only an accepted tick, INIT and RESET write V, by the ways a command can end. -/
theorem velocity_written {i : Instr} {s t : State} (h : exec i s = .next t) (hne : t.v ≠ s.v) :
    (i = .update ∧ TickAccepted s) ∨ i = .init ∨ i = .reset := by
  cases StateRules.exec_completes h with
  | answered | refused | wrcfg | lds | dropped => exact absurd rfl hne
  | reset => exact .inr (.inr rfl)
  | init => exact .inr (.inl rfl)
  | ticked ha => exact .inl ⟨rfl, ha⟩

/-- Settles O32. -/
theorem integratorRule : Obligations.IntegratorRule := by
  refine ⟨fun s ha => ⟨_, WindowRules.exec_update_of_tickAccepted ha, tickV_get s⟩, fun s k ha hk => ?_,
    fun _ _ _ => velocity_written⟩
  refine exec_update_of_not_finite ha hk fun hf => ?_
  obtain ⟨-, -, hv⟩ := stages_finite hf k
  exact hv

/-! ### The vertical component (R138) -/

/-- Equal in the two horizontal components (00_scope.md R6). -/
def SameHorizontal (u w : Vec3) : Prop := u.c0 = w.c0 ∧ u.c1 = w.c1

theorem sameHorizontal_set (u : Vec3) (a : W64) : SameHorizontal (u.set 2 a) u := ⟨rfl, rfl⟩

/-- The states hold the same where a tick reads them, the vertical components aside. -/
structure AgreeHorizontally (s s' : State) : Prop where
  mode : s.mode = s'.mode
  cfg : s.cfg = s'.cfg
  osc : s.osc = s'.osc
  sx : SameHorizontal s.sx s'.sx
  ref : SameHorizontal s.ref s'.ref
  x0 : SameHorizontal s.x0 s'.x0
  x1 : SameHorizontal s.x1 s'.x1
  y0 : SameHorizontal s.y0 s'.y0
  y1 : SameHorizontal s.y1 s'.y1
  v : SameHorizontal s.v s'.v

section

variable {s s' : State}

theorem AgreeHorizontally.tickRef (h : AgreeHorizontally s s') : SameHorizontal s.tickRef s'.tickRef := by
  rw [StateRules.tickRef_eq, StateRules.tickRef_eq, h.mode]
  split
  · exact h.sx
  · exact h.ref

theorem AgreeHorizontally.tickX0 (h : AgreeHorizontally s s') : SameHorizontal s.tickX0 s'.tickX0 := by
  obtain ⟨hr0, hr1⟩ := h.tickRef
  obtain ⟨hs0, hs1⟩ := h.sx
  exact ⟨congrArg₂ fsub hs0 hr0, congrArg₂ fsub hs1 hr1⟩

theorem AgreeHorizontally.tickY0 (h : AgreeHorizontally s s') : SameHorizontal s.tickY0 s'.tickY0 := by
  obtain ⟨hn0, hn1⟩ := h.tickX0
  obtain ⟨-, hcfg, -, -, -, ⟨hx00, hx01⟩, ⟨hx10, hx11⟩, ⟨hy00, hy01⟩, ⟨hy10, hy11⟩, -⟩ := h
  simp only [SameHorizontal, State.tickY0, highPass, State.hpb0, State.hpb1, State.hpb2, State.hpa1, State.hpa2, hcfg,
    hn0, hn1, hx00, hx01, hx10, hx11, hy00, hy01, hy10, hy11, and_self]

theorem AgreeHorizontally.tickV (h : AgreeHorizontally s s') : SameHorizontal s.tickV s'.tickV := by
  obtain ⟨hn0, hn1⟩ := h.tickY0
  obtain ⟨-, hcfg, -, -, -, -, -, ⟨hy0, hy1⟩, -, ⟨hv0, hv1⟩⟩ := h
  simp only [SameHorizontal, State.tickV, integrate, State.dt, hcfg, hn0, hn1, hy0, hy1, hv0, hv1, and_self]

/-- A channel takes the horizontal filtered accelerations alone (42_oscillator_bank.md R150). -/
theorem oscNext_congr (a b o : Mat2) {fp fp' fc fc' : Vec3} (hp : SameHorizontal fp fp') (hc : SameHorizontal fc fc') :
    oscNext a b o fp fc = oscNext a b o fp' fc' := by
  obtain ⟨hp0, hp1⟩ := hp
  obtain ⟨hc0, hc1⟩ := hc
  simp only [oscNext, hp0, hp1, hc0, hc1]

/-- The spectrum takes the horizontal ground velocities alone (R152). -/
theorem bankSpectrum_congr (o : Table Mat2 32) {u w : Vec3} (h : SameHorizontal u w) :
    bankSpectrum o u = bankSpectrum o w := by
  obtain ⟨h0, h1⟩ := h
  simp only [bankSpectrum, svaOf, h0, h1]

theorem AgreeHorizontally.tickOsc (h : AgreeHorizontally s s') : s.tickOsc = s'.tickOsc := by
  refine congrArg Table.ofFn (funext fun j => ?_)
  simp only [State.oa, State.ob, h.cfg, h.osc]
  exact oscNext_congr _ _ _ h.y0 h.tickY0

theorem AgreeHorizontally.tickSva (h : AgreeHorizontally s s') : s.tickSva = s'.tickSva := by
  rw [State.tickSva, State.tickSva, h.tickOsc, bankSpectrum_congr _ h.tickV]

theorem AgreeHorizontally.insertedWindow (h : AgreeHorizontally s s') (hwin : s.win = s'.win) (hptr : s.wptr = s'.wptr) :
    s.insertedWindow s.tick = s'.insertedWindow s'.tick := by
  simp only [State.insertedWindow, State.tick, hwin, hptr, h.tickSva]

theorem AgreeHorizontally.wcap (h : AgreeHorizontally s s') : s.wcap = s'.wcap := by
  rw [State.wcap, State.wcapField, h.cfg, State.wcap, State.wcapField]

theorem AgreeHorizontally.insertedMax (h : AgreeHorizontally s s') (hwin : s.win = s'.win) (hptr : s.wptr = s'.wptr) :
    s.insertedMax s.tick = s'.insertedMax s'.tick := by
  rw [State.insertedMax, State.insertedMax, h.insertedWindow hwin hptr, h.wcap]

/-- The class that the commit writes and the answer carries (43_classifier.md R169). -/
theorem AgreeHorizontally.commit_lclass (h : AgreeHorizontally s s') (hwin : s.win = s'.win) (hptr : s.wptr = s'.wptr) :
    (s.unstage.commit s.tick).lclass = (s'.unstage.commit s'.tick).lclass :=
  congrArg classify (h.insertedMax hwin hptr)

theorem AgreeHorizontally.update_delivered (h : AgreeHorizontally s s') (hwin : s.win = s'.win)
    (hptr : s.wptr = s'.wptr) (hdel : s.delivered = s'.delivered) :
    (s.unstage.commit s.tick).respondClass.delivered = (s'.unstage.commit s'.tick).respondClass.delivered := by
  rw [State.respondClass_delivered, State.respondClass_delivered, h.commit_lclass hwin hptr, State.commit_delivered,
    State.commit_delivered, State.unstage_delivered, State.unstage_delivered, hdel]

end

/-- Settles O33: what a tick writes after the integrator is computed from the horizontal components. -/
theorem verticalComponentStopsAtIntegrator : Obligations.VerticalComponentStopsAtIntegrator := by
  intro s a b c d e f g h t t' s' ha ha' ht ht'
  have hs : AgreeHorizontally s' s := ⟨rfl, rfl, rfl, sameHorizontal_set _ _, sameHorizontal_set _ _,
    sameHorizontal_set _ _, sameHorizontal_set _ _, sameHorizontal_set _ _, sameHorizontal_set _ _,
    sameHorizontal_set _ _⟩
  obtain rfl := Host.Outcome.next.inj ((WindowRules.exec_update_of_tickAccepted ha).symm.trans ht)
  obtain rfl := Host.Outcome.next.inj ((WindowRules.exec_update_of_tickAccepted ha').symm.trans ht')
  exact ⟨hs.tickOsc, hs.tickSva, hs.insertedWindow rfl rfl, congrArg (nextPointer s.wptr) hs.wcap,
    hs.insertedMax rfl rfl, hs.commit_lclass rfl rfl, hs.update_delivered rfl rfl rfl⟩

end Sys2Proof.ConditionerRules
end

section
/-! PROOFS. The oscillator bank (42_oscillator_bank.md R150 to R154): the new state of a channel by element and its
spectrum value by axis, what a value that is not finite ends in, and that a column and a channel depend on their own
operands alone. -/

namespace Sys2Proof.BankRules

open Sys2Proof Sys2Proof.Machine Sys2Proof.Safety Sys2Proof.SampleRules

/-! ### The bank, element by element (R150 to R153) -/

theorem oa_get (s : State) (j : Fin 32) (r c : Fin 2) : (s.oa j).get r c = s.cfg.get (oaIndex j r c) := by
  fin_cases r <;> fin_cases c <;> rfl

theorem ob_get (s : State) (j : Fin 32) (r c : Fin 2) : (s.ob j).get r c = s.cfg.get (obIndex j r c) := by
  fin_cases r <;> fin_cases c <;> rfl

/-- Row `r` of the matrices, column `k` of the old state and axis `k` of the forcing, both rows from the old state
(R151). -/
theorem oscNext_get (a b o : Mat2) (fp fc : Vec3) (r k : Fin 2) :
    (oscNext a b o fp fc).get r k = bankElement (a.get r 0) (a.get r 1) (b.get r 0) (b.get r 1)
      (o.get 0 k) (o.get 1 k) (fp.get k.castSucc) (fc.get k.castSucc) := by
  fin_cases r <;> fin_cases k <;> rfl

theorem tickOsc_get (s : State) (j : Fin 32) (r k : Fin 2) :
    (s.tickOsc.get j).get r k = bankElement ((s.oa j).get r 0) ((s.oa j).get r 1) ((s.ob j).get r 0) ((s.ob j).get r 1)
      ((s.osc.get j).get 0 k) ((s.osc.get j).get 1 k) (s.y0.get k.castSucc) (s.tickY0.get k.castSucc) := by
  rw [State.tickOsc, bankState, Table.get_ofFn, oscNext_get]

/-- The norm of row 1 of the new state plus the new ground velocity, the one place where the axes meet (R152, R153). -/
theorem tickSva_get (s : State) (j : Fin 32) :
    s.tickSva.get j = norm2 (fadd ((s.tickOsc.get j).get 1 0) (s.tickV.get 0))
      (fadd ((s.tickOsc.get j).get 1 1) (s.tickV.get 1)) := by
  rw [State.tickSva, bankSpectrum, Table.get_ofFn]
  rfl

/-- The numeric check covers every element of every channel and the whole spectrum (60_exceptions.md R227). -/
theorem bank_finite {s : State} (h : s.tick.allFinite = true) (j : Fin 32) :
    (∀ r k, isFinite ((s.tickOsc.get j).get r k) = true) ∧ isFinite (s.tickSva.get j) = true := by
  obtain ⟨-, -, -, hosc, hsva⟩ := (Tick.allFinite_iff s.tick).1 h
  exact ⟨(Mat2.allFinite_iff _).1 (hosc j), hsva j⟩

/-! ### The recursion and the spectrum (R151 to R153) -/

/-- Settles O34: the recursion is `bankElement` on the entries that R28 names. -/
theorem bankRecursionRule : Obligations.BankRecursionRule := by
  refine ⟨fun s ha => ⟨_, WindowRules.exec_update_of_tickAccepted ha, fun j r => ?_⟩, fun s j r k ha hk => ?_⟩
  · have helement (k : Fin 2) := tickOsc_get s j r k
    simp only [oa_get, ob_get] at helement
    exact ⟨helement 0, helement 1⟩
  · refine exec_update_of_not_finite ha hk fun hf => ?_
    obtain ⟨hosc, -⟩ := bank_finite hf j
    exact hosc r k

/-- Settles O35: the norm is a root of a sum of squares, which the numeric check has found finite. -/
theorem spectrumRule : Obligations.SpectrumRule := by
  refine ⟨fun s ha => ⟨_, WindowRules.exec_update_of_tickAccepted ha, fun j => ⟨tickSva_get s j, ?_⟩⟩,
    fun s j ha hj => ?_⟩
  · obtain ⟨-, hf⟩ := ha
    exact StateRules.tickSva_nonNegative hf j
  · refine exec_update_of_not_finite ha hj fun hf => ?_
    obtain ⟨-, hsva⟩ := bank_finite hf j
    exact hsva

/-! ### Lane independence (R154) -/

section

variable {s s' : State} {j : Fin 32}

/-- A column of the new state takes that column of the old one, the matrices of the channel and its own axis. -/
theorem tickOsc_column_congr {k : Fin 2} (hoa : s.oa j = s'.oa j) (hob : s.ob j = s'.ob j)
    (hcolumn : ∀ r, (s.osc.get j).get r k = (s'.osc.get j).get r k) (hfp : s.y0.get k.castSucc = s'.y0.get k.castSucc)
    (hfc : s.tickY0.get k.castSucc = s'.tickY0.get k.castSucc) (r : Fin 2) :
    (s.tickOsc.get j).get r k = (s'.tickOsc.get j).get r k := by
  rw [tickOsc_get, tickOsc_get, hoa, hob, hcolumn, hcolumn, hfp, hfc]

/-- The spectrum value of a channel takes row 1 of the channel's new state and the horizontal ground velocities. -/
theorem tickSva_congr (h : ∀ k : Fin 2, (s.tickOsc.get j).get 1 k = (s'.tickOsc.get j).get 1 k ∧
      s.tickV.get k.castSucc = s'.tickV.get k.castSucc) : s.tickSva.get j = s'.tickSva.get j := by
  have ⟨hrow0, hv0⟩ := h 0
  have ⟨hrow1, hv1⟩ := h 1
  rw [tickSva_get, tickSva_get, hrow0, hrow1]
  exact congrArg₂ norm2 (congrArg _ hv0) (congrArg _ hv1)

end

/-- Settles O36: what the commits write of the bank, lane by lane. -/
theorem lanesAreIndependent : Obligations.LanesAreIndependent := by
  intro s s' t t' j ha ha' ht ht' hoa hob
  obtain rfl := Host.Outcome.next.inj ((WindowRules.exec_update_of_tickAccepted ha).symm.trans ht)
  obtain rfl := Host.Outcome.next.inj ((WindowRules.exec_update_of_tickAccepted ha').symm.trans ht')
  exact ⟨fun _ hcolumn hfp hfc => tickOsc_column_congr hoa hob hcolumn hfp hfc, tickSva_congr⟩

end Sys2Proof.BankRules
end

section
/-! PROOFS. The window and the class (43_classifier.md R165 to R170). A fold of `fmax` over finite values is below none
of them, which is R165 over the spectrum and R167 over the window. A quiet state stays quiet under a tick whose offset is
+0.0 (`quiet_commit`); `Repeating` carries that through a stream of deliveries, and `RunsSilently` composes their runs. -/

namespace Sys2Proof.ClassifierRules

open Sys2Proof Sys2Proof.Machine Sys2Proof.Safety Sys2Proof.StateRules Sys2Proof.WindowRules Sys2Proof.PortRules
  Sys2Proof.PseudoRules

/-- An accepted tick leaves a state of the invariant. -/
theorem update_keeps_inv {s : State} (hs : Inv s) (ha : TickAccepted s) : ∃ t, exec .update s = .next t ∧ Inv t :=
  have he := exec_update_of_tickAccepted ha
  ⟨_, he, (exec_completes he).inv hs⟩

theorem isFinite_of_nonNegative {w : W64} (h : NonNegative w) : isFinite w = true :=
  have ⟨hf, _⟩ := (nonNegative_iff_isFinite w).1 h
  hf

/-! ### The fold of `fmax` -/

theorem isFinite_fmax {a b : W64} (ha : isFinite a = true) (hb : isFinite b = true) : isFinite (fmax a b) = true := by
  obtain h | h := fmax_eq_or a b <;> rw [h] <;> assumption

theorem value_le_fmax {a b : W64} (ha : isFinite a = true) (hb : isFinite b = true) :
    value a ≤ value (fmax a b) ∧ value b ≤ value (fmax a b) := by
  unfold fmax
  split
  · next hlt => exact ⟨((Arithmetic.flt_iff_value_lt ha hb).1 hlt).le, le_rfl⟩
  · next hge => exact ⟨le_rfl, not_lt.1 fun hlt => hge ((Arithmetic.flt_iff_value_lt ha hb).2 hlt)⟩

/-- A fold of `fmax` over finite values is finite and at least its start and every element. -/
theorem value_le_foldl_fmax {α : Type} {f : α → W64} {l : List α} {m : W64} (hm : isFinite m = true)
    (hf : ∀ i ∈ l, isFinite (f i) = true) :
    isFinite (l.foldl (fun m i => fmax m (f i)) m) = true ∧
      value m ≤ value (l.foldl (fun m i => fmax m (f i)) m) ∧
      ∀ i ∈ l, value (f i) ≤ value (l.foldl (fun m i => fmax m (f i)) m) := by
  induction l generalizing m with
  | nil => exact ⟨hm, le_rfl, nofun⟩
  | cons i l ih =>
    obtain ⟨hi, hl⟩ := List.forall_mem_cons.1 hf
    obtain ⟨hml, hil⟩ := value_le_fmax hm hi
    obtain ⟨hfin, hstart, helem⟩ := ih (isFinite_fmax hm hi) hl
    exact ⟨hfin, hml.trans hstart, List.forall_mem_cons.2 ⟨hil.trans hstart, helem⟩⟩

/-- The fold that R165 and R167 write, from entry 0 over the entries 1 to n − 1, is below none of the n entries. -/
theorem foldl_fmax_not_flt {f : Nat → W64} {n : Nat} (hf : ∀ i < n, isFinite (f i) = true) {i : Nat} (hi : i < n) :
    flt ((List.range' 1 (n - 1)).foldl (fun m i => fmax m (f i)) (f 0)) (f i) = false := by
  obtain ⟨hfin, hstart, helem⟩ := value_le_foldl_fmax (l := List.range' 1 (n - 1)) (hf 0 (by omega)) fun j hj =>
    hf j (by rw [List.mem_range'_1] at hj; omega)
  rw [← Bool.not_eq_true, Arithmetic.flt_iff_value_lt hfin (hf i hi), not_lt]
  cases i with
  | zero => exact hstart
  | succ i => exact helem _ (List.mem_range'_1.2 (by omega))

/-! ### The tick maximum (R165) -/

theorem svaAt_val (s : State) (j : Fin 32) : s.svaAt j = s.sva.get j := dif_pos j.isLt

/-- The fold over the list of spectrum values is the fold over their indices. -/
theorem tickMax_eq_foldl (s : State) :
    tickMax s.sva = (List.range' 1 31).foldl (fun m j => fmax m (s.svaAt j)) (s.svaAt 0) := by
  have htail : s.sva.entries.tail = (List.range' 1 31).map s.svaAt := by rw [← map_svaAt]; rfl
  rw [tickMax, htail, List.foldl_map]
  rfl

theorem tickMax_not_flt {s : State} (h : ∀ j, NonNegative (s.sva.get j)) (j : Fin 32) :
    flt (tickMax s.sva) (s.sva.get j) = false := by
  rw [tickMax_eq_foldl, ← svaAt_val]
  refine foldl_fmax_not_flt (n := 32) (fun i hi => ?_) j.isLt
  rw [svaAt_val s ⟨i, hi⟩]
  exact isFinite_of_nonNegative (h _)

/-- Settles O37. -/
theorem tickMaximumRule : Obligations.TickMaximumRule := by
  intro s hs ha
  obtain ⟨t, he, -, -, ⟨hsva, -⟩, -⟩ := update_keeps_inv hs ha
  obtain ⟨hread, -⟩ := window_of_tickAccepted hs ha he
  refine ⟨t, he, ?_⟩
  rw [hread, if_pos rfl]
  exact ⟨tickMax_eq_foldl t, tickMax_mem t.sva, tickMax_not_flt hsva⟩

/-! ### The insert (R166) -/

theorem windowEntry_eq {s : State} {i : Nat} (hptr : s.wptr.toNat < s.wcap) (hi : i < s.wcap) :
    s.windowEntry i = s.win.read ((s.wptr.toNat + i) % s.wcap) :=
  congrArg s.win.read (windowAddress_eq_mod hptr hi)

/-- Only the oldest entry stands at the pointer. -/
theorem windowAddress_ne {wptr wcap i : Nat} (hpos : 0 < i) (hi : i < wcap) : windowAddress wptr wcap i ≠ wptr := by
  unfold windowAddress
  split <;> omega

theorem succ_mod_eq_ite {p n : Nat} (h : p < n) : (p + 1) % n = if p + 1 = n then 0 else p + 1 := by
  split
  · next hlast => rw [hlast, Nat.mod_self]
  · exact Nat.mod_eq_of_lt (by omega)

/-- Settles O38: the pointer moves on by one, so every entry but the newest keeps its address. -/
theorem windowInsertRule : Obligations.WindowInsertRule := by
  intro s hs ha
  have ⟨⟨hm, _⟩, _⟩ := ha
  obtain ⟨t, he, ht⟩ := update_keeps_inv hs ha
  obtain ⟨hread, hwptr, hwcap, hm'⟩ := window_of_tickAccepted hs ha he
  obtain ⟨hptr, hle, hmax⟩ := window_bounds hs hm
  obtain ⟨hptr', -⟩ := window_bounds ht hm'
  have hnext : t.wptr.toNat = (s.wptr.toNat + 1) % s.wcap := by rw [hwptr, nextPointer_toNat hptr (by omega)]
  refine ⟨t, he, by rw [hread, if_pos rfl], fun a hne => by rw [hread, if_neg hne],
    hnext.trans (succ_mod_eq_ite hptr), hptr', fun i hi => ?_, ?_⟩
  · have haddress : (t.wptr.toNat + i) % t.wcap = windowAddress s.wptr.toNat s.wcap (i + 1) := by
      rw [windowAddress_eq_mod hptr hi, hnext, hwcap, Nat.mod_add_mod, Nat.add_assoc, Nat.add_comm 1 i]
    rw [windowEntry_eq hptr' (by omega), haddress, hread, if_neg (windowAddress_ne (by omega) hi)]
    rfl
  · rw [windowEntry_eq hptr' (by omega), hwptr, hwcap, nextPointer_newest hptr (by omega), hread, if_pos rfl]

/-! ### The window maximum (R167) -/

/-- Settles O39: what the invariant says of the state after the tick. -/
theorem windowMaximumRule : Obligations.WindowMaximumRule := by
  intro s hs ha
  obtain ⟨t, he, ht⟩ := update_keeps_inv hs ha
  obtain ⟨-, -, hwcap, hm⟩ := window_of_tickAccepted hs ha he
  have ⟨_, _, ⟨_, hmax, hcells⟩, hwindow, _⟩ := ht
  obtain ⟨hptr, hfold, -⟩ := hwindow hm
  rw [hwcap] at hptr hfold
  obtain ⟨i, hi, hmem⟩ := windowMax_mem t.win (Nat.zero_lt_of_lt hptr)
  refine ⟨t, he, hfold, ⟨i, hi, hfold.trans hmem⟩, fun j hj => ?_, hmax⟩
  rw [hfold]
  exact foldl_fmax_not_flt (fun k _ => isFinite_of_nonNegative (read_nonNegative hcells k)) hj

/-! ### The class (R168) -/

/-- The class of a maximum by its value, as R168's table gives it. -/
def classOfValue (x : ℚ) : Nat :=
  if x < 5 then 0 else if x < 15 then 1 else if x < 50 then 2 else if x < 100 then 3 else 4

theorem classify_toNat {m : W64} (h : isFinite m = true) : (classify m).toNat = classOfValue (value m) := by
  obtain ⟨hflt, -, -, -, -, -, -, -, -, -, -, h5, h15, h50, h100⟩ := Arithmetic.comparisonRule
  have hbelow {c : W64} {x : ℚ} (hx : value c = x) (hc : isFinite c = true) : flt m c = true ↔ value m < x :=
    hx ▸ hflt m c h hc
  simp only [classify, classOfValue, hbelow h5 (by decide), hbelow h15 (by decide), hbelow h50 (by decide),
    hbelow h100 (by decide)]
  split_ifs <;> rfl

theorem classOfValue_mono : Monotone classOfValue := by
  intro x y hxy
  unfold classOfValue
  split_ifs <;> linarith

/-- Only UPDATE, INIT and RESET write LCLASS, by the ways a command can end. -/
theorem class_written {i : Instr} {s t : State} (h : exec i s = .next t) (hne : t.lclass ≠ s.lclass) :
    i = .update ∨ i = .init ∨ i = .reset := by
  cases exec_completes h with
  | answered | refused | wrcfg | lds | dropped => exact absurd rfl hne
  | reset => exact .inr (.inr rfl)
  | init => exact .inr (.inl rfl)
  | ticked => exact .inl rfl

/-- Settles O40. -/
theorem classificationRule : Obligations.ClassificationRule := by
  refine ⟨fun m hm => classify_toNat (isFinite_of_nonNegative hm), fun m n hm hn hle => ?_,
    fun s ha => ⟨_, exec_update_of_tickAccepted ha, rfl⟩, fun _ _ _ => class_written⟩
  rw [classify_toNat (isFinite_of_nonNegative hm), classify_toNat (isFinite_of_nonNegative hn)]
  exact classOfValue_mono hle

/-! ### Zeros through a tick (R170) -/

theorem eq_posZero {w : W64} (hz : isZero w = true) (hs : signBit w = false) : w = Config.posZero := by
  rw [isZero_iff] at hz
  have hlt : ¬ 2 ^ 63 ≤ w.toNat := of_decide_eq_false hs
  apply BitVec.eq_of_toNat_eq
  rw [Config.posZero, BitVec.toNat_ofNat]
  omega

/-- +0.0 is on the left of the sum, so the velocity stays +0.0 whichever zero is added. -/
theorem integrate1_posZero {dt y y' : W64} (hdt : isFinite dt = true) (hy : isZero y = true) (hy' : isZero y' = true) :
    integrate1 dt Config.posZero y y' = Config.posZero :=
  fadd_posZero (isZero_fdiv (isZero_fmul_left (isZero_fadd hy hy') hdt) (by decide) (by decide))

/-- The square of a zero of either sign is +0.0. -/
theorem fmul_self_of_isZero {p : W64} (hp : isZero p = true) : fmul p p = Config.posZero :=
  have hz := isZero_fmul_left hp (isFinite_of_isZero hp)
  eq_posZero hz (signBit_fmul_self (isFinite_of_isZero hz))

theorem norm2_of_isZero {p q : W64} (hp : isZero p = true) (hq : isZero q = true) : norm2 p q = Config.posZero := by
  rw [norm2, fmul_self_of_isZero hp, fmul_self_of_isZero hq, fadd_posZero (by decide), fsqrt_posZero]

/-! ### A quiet tick (R170) -/

/-- Before the first tick everything is zero (10_state.md R39 (e)). -/
theorem quiet_of_uninitialized {s : State} (hs : Inv s) (hm : s.mode = .uninitialized) : Quiet s := by
  obtain ⟨-, -, -, -, hzero, -⟩ := hs
  obtain ⟨-, hx0, hx1, hx2, hy0, hy1, hv, hosc, hsva, hwin, -, hmax, hclass⟩ := hzero (by rw [hm]; nofun)
  have hvec (k : Fin 3) : isZero (Vec3.zero.get k) = true := by rw [Vec3.get_zero]; decide
  refine ⟨hx0, hx1, hx2, fun k => hy0 ▸ hvec k, fun k => hy1 ▸ hvec k, hv, fun j r c => ?_, hsva, fun i => ?_,
    hmax, hclass⟩
  · rw [hosc, Table.get_fill]
    fin_cases r <;> fin_cases c <;> rfl
  · rw [hwin, Memory.read]

section

variable {s : State}

/-- Every coefficient of a table that passes is finite (40_configuration.md R114). -/
theorem coefficient_finite (hc : s.cfgValid = true) {i : Fin 264} (hi : i ≠ 7) : isFinite (s.cfg.get i) = true := by
  obtain ⟨-, hfinite, -⟩ := (cfgValid_iff s).1 hc
  exact bne_iff_ne.2 (hfinite i hi)

theorem oa_finite (hc : s.cfgValid = true) (j : Fin 32) (r c : Fin 2) : isFinite ((s.oa j).get r c) = true := by
  rw [BankRules.oa_get]
  exact coefficient_finite hc (Fin.ne_of_val_ne (by simp only [oaIndex]; omega))

theorem ob_finite (hc : s.cfgValid = true) (j : Fin 32) (r c : Fin 2) : isFinite ((s.ob j).get r c) = true := by
  rw [BankRules.ob_get]
  exact coefficient_finite hc (Fin.ne_of_val_ne (by simp only [obIndex]; omega))

theorem isZero_tickY0 (hc : s.cfgValid = true) (hq : Quiet s) (hx : s.tickX0 = Vec3.zero) (k : Fin 3) :
    isZero (s.tickY0.get k) = true := by
  obtain ⟨hx0, hx1, -, hy0, hy1, -⟩ := hq
  have hz : isZero Config.posZero = true := by decide
  rw [ConditionerRules.tickY0_get, hx, hx0, hx1, Vec3.get_zero, highPass1]
  have hproduct {i : Fin 264} (hi : i ≠ 7) {w : W64} (hw : isZero w = true) : isZero (fmul (s.cfg.get i) w) = true :=
    isZero_fmul_right (coefficient_finite hc hi) hw
  have hforward := isZero_fadd (isZero_fadd (hproduct (i := 0) (by decide) hz) (hproduct (i := 1) (by decide) hz))
    (hproduct (i := 2) (by decide) hz)
  exact isZero_fsub (isZero_fsub hforward (hproduct (i := 4) (by decide) (hy0 k)))
    (hproduct (i := 5) (by decide) (hy1 k))

theorem tickV_eq_zero (hc : s.cfgValid = true) (hq : Quiet s) (hx : s.tickX0 = Vec3.zero) : s.tickV = Vec3.zero := by
  have hy := isZero_tickY0 hc hq hx
  obtain ⟨-, -, -, hy0, -, hv, -⟩ := hq
  refine Vec3.ext_get fun k => ?_
  rw [ConditionerRules.tickV_get, hv, Vec3.get_zero]
  exact integrate1_posZero (coefficient_finite hc (by decide)) (hy0 k) (hy k)

theorem isZero_tickOsc (hc : s.cfgValid = true) (hq : Quiet s) (hx : s.tickX0 = Vec3.zero) (j : Fin 32) (r k : Fin 2) :
    isZero ((s.tickOsc.get j).get r k) = true := by
  have hy := isZero_tickY0 hc hq hx
  obtain ⟨-, -, -, hy0, -, -, hosc, -⟩ := hq
  rw [BankRules.tickOsc_get, bankElement]
  have hmotion := isZero_fadd (isZero_fmul_right (oa_finite hc j r 0) (hosc j 0 k))
    (isZero_fmul_right (oa_finite hc j r 1) (hosc j 1 k))
  have hforcing := isZero_fadd (isZero_fmul_right (ob_finite hc j r 0) (hy0 k.castSucc))
    (isZero_fmul_right (ob_finite hc j r 1) (hy k.castSucc))
  exact isZero_fadd hmotion hforcing

theorem tickSva_get_eq_posZero (hc : s.cfgValid = true) (hq : Quiet s) (hx : s.tickX0 = Vec3.zero) (j : Fin 32) :
    s.tickSva.get j = Config.posZero := by
  have hosc := isZero_tickOsc hc hq hx j
  have hz : isZero Config.posZero = true := by decide
  rw [BankRules.tickSva_get, tickV_eq_zero hc hq hx, Vec3.get_zero, Vec3.get_zero]
  exact norm2_of_isZero (isZero_fadd (hosc 1 0) hz) (isZero_fadd (hosc 1 1) hz)

/-- The numeric check passes: every value about to be written is a zero. -/
theorem tick_allFinite_of_quiet (hc : s.cfgValid = true) (hq : Quiet s) (hx : s.tickX0 = Vec3.zero) :
    s.tick.allFinite = true := by
  have hzero {u : Vec3} (hu : u = Vec3.zero) : u.allFinite = true := by rw [hu]; decide
  refine (Tick.allFinite_iff s.tick).2 ⟨hzero hx, (Vec3.allFinite_iff _).2 fun k => ?_,
    hzero (tickV_eq_zero hc hq hx), fun j => (Mat2.allFinite_iff _).2 fun r k => ?_, fun j => ?_⟩
  · exact isFinite_of_isZero (isZero_tickY0 hc hq hx k)
  · exact isFinite_of_isZero (isZero_tickOsc hc hq hx j r k)
  · exact isFinite_of_nonNegative (tickSva_get_eq_posZero hc hq hx j ▸ nonNegative_posZero)

theorem insertedWindow_read_eq_posZero (hwf : s.win.wf = true) (hc : s.cfgValid = true) (hq : Quiet s)
    (hx : s.tickX0 = Vec3.zero) (i : Nat) : (s.insertedWindow s.tick).read i = Config.posZero := by
  obtain ⟨j, hmax⟩ := tickMax_mem s.tickSva
  have hread : (s.insertedWindow s.tick).read i = if i = s.wptr.toNat then tickMax s.tickSva else s.win.read i :=
    Memory.read_write s.win hwf _ _ i
  have ⟨_, _, _, _, _, _, _, _, hwin, _⟩ := hq
  rw [hread, hmax, tickSva_get_eq_posZero hc hq hx, hwin, ite_self]

theorem insertedMax_eq_posZero (hwf : s.win.wf = true) (hc : s.cfgValid = true) (hq : Quiet s)
    (hx : s.tickX0 = Vec3.zero) : s.insertedMax s.tick = Config.posZero := by
  obtain ⟨hpos, -⟩ := wcap_bounds hc
  obtain ⟨i, -, hmem⟩ := windowMax_mem (s.insertedWindow s.tick) hpos
  rw [State.insertedMax, hmem, insertedWindow_read_eq_posZero hwf hc hq hx]

theorem quiet_commit (hwf : s.win.wf = true) (hc : s.cfgValid = true) (hq : Quiet s) (hx : s.tickX0 = Vec3.zero) :
    Quiet (s.unstage.commit s.tick) := by
  have ⟨hx0, hx1, _, hy0, _⟩ := hq
  have hmax := insertedMax_eq_posZero hwf hc hq hx
  exact ⟨hx, hx0, hx1, isZero_tickY0 hc hq hx, hy0, tickV_eq_zero hc hq hx, isZero_tickOsc hc hq hx,
    Table.ext fun j => (tickSva_get_eq_posZero hc hq hx j).trans (Table.get_fill _ j).symm,
    insertedWindow_read_eq_posZero hwf hc hq hx, hmax, (congrArg classify hmax).trans classify_posZero⟩

end

/-- The response OK with class 0 and data 0 (30_encoding.md R81). -/
def silentResponse : Response := ⟨0x00000000#32, 0#64⟩

theorem respondClass_delivered_of_quiet {s : State} (h : Quiet s) :
    s.respondClass.delivered = s.delivered ++ [silentResponse] := by
  obtain ⟨-, -, -, -, -, -, -, -, -, -, hclass⟩ := h
  rw [State.respondClass_delivered, hclass]
  rfl

/-- Settles O41: before the first tick and in a quiet state alike everything is zero, and the offset is +0.0. -/
theorem constantSampleKeepsQuiet : Obligations.ConstantSampleKeepsQuiet := by
  intro s hs ha hcase
  have ⟨hm, _, hsx⟩ := ha
  have ⟨htab, _, _, _, _, _, _, hwf, _⟩ := hs
  have hc := htab hm
  have hq : Quiet s := hcase.elim (quiet_of_uninitialized hs) fun ⟨_, hq, _⟩ => hq
  have hsame (hu : s.mode ≠ .uninitialized) : s.ref = s.sx := by
    obtain ⟨-, -, he⟩ := hcase.resolve_left hu
    exact he.symm
  have href : s.tickRef = s.sx := (tickRef_eq s).trans (ite_eq_left_iff.2 hsame)
  have hx : s.tickX0 = Vec3.zero := Vec3.ext_get fun k => by
    rw [SampleRules.tickX0_get, href, fsub_self ((Vec3.allFinite_iff s.sx).1 hsx k), Vec3.get_zero]
  have hquiet := quiet_commit hwf hc hq hx
  exact ⟨_, exec_update_of_tickAccepted ⟨ha, tick_allFinite_of_quiet hc hq hx⟩, hquiet, rfl, href,
    respondClass_delivered_of_quiet hquiet⟩

/-! ### A stream of equal samples (R170, 30_encoding.md R88) -/

/-- The state with a complete sample staged. -/
def offered (s : State) (r : Vec3) : State := { s with sx := r, svalid := 0b111#3 }

theorem stage_offered (s : State) (r : Vec3) : ((s.stage 0 r.c0).stage 1 r.c1).stage 2 r.c2 = offered s r :=
  stage_sample s r.c0 r.c1 r.c2

theorem inv_offered {s : State} (h : Inv s) (hm : s.mode ≠ .unconfigured) (r : Vec3) : Inv (offered s r) := by
  rw [← stage_offered]
  exact inv_stage (inv_stage (inv_stage h hm 0 r.c0) hm 1 r.c1) hm 2 r.c2

/-- A delivery at the head of the port: three LDS answered OK, and what UPDATE does of the staged sample. -/
theorem run_delivery {s t : State} {r : Vec3} {a : Response} (hm : s.mode ≠ .unconfigured)
    (hu : Answers .update (offered s r) t a) (q : List HostEvent) (d : List Response) :
    Host.Core.run core 4 (atPort s (hostEvents (sample r.c0 r.c1 r.c2) ++ q) d) =
      .next (atPort t q (d ++ List.replicate 3 (okResponse s 0#64) ++ [a])) := by
  rw [← stage_offered] at hu
  calc Host.Core.run core 4 (atPort s (hostEvents (sample r.c0 r.c1 r.c2) ++ q) d)
    _ = Host.Core.run core 3 (atPort (s.stage 0 r.c0) (hostEvents [.lds 1 r.c1, .lds 2 r.c2, .update] ++ q) _) :=
      run_command (answers_lds hm 0 r.c0) 3 _ _
    _ = Host.Core.run core 2
          (atPort ((s.stage 0 r.c0).stage 1 r.c1) (hostEvents [.lds 2 r.c2, .update] ++ q) _) :=
      run_command (answers_lds (s := s.stage 0 r.c0) hm 1 r.c1) 2 _ _
    _ = Host.Core.run core 1
          (atPort (((s.stage 0 r.c0).stage 1 r.c1).stage 2 r.c2) (hostEvents [.update] ++ q) _) :=
      run_command (answers_lds (s := (s.stage 0 r.c0).stage 1 r.c1) hm 2 r.c2) 1 _ _
    _ = _ := (run_command hu 0 q _).trans (by simp [Host.Core.run, okResponse])

/-- After at least one delivery of `r` and no other sample. -/
structure Repeating (r : Vec3) (s : State) : Prop where
  inv : Inv s
  mode : s.mode = .running
  ref : s.ref = r
  quiet : Quiet s

/-- What a delivery of `r` finds: no tick yet, or no sample but `r` before. -/
def Repeatable (r : Vec3) (s : State) : Prop := s.mode = .uninitialized ∨ Repeating r s

theorem Repeatable.mode_ne {r : Vec3} {s : State} (h : Repeatable r s) : s.mode ≠ .unconfigured := by
  obtain hm | hs := h
  · rw [hm]
    nofun
  · rw [hs.mode]
    nofun

theorem Repeatable.quiet {r : Vec3} {s : State} (h : Repeatable r s) (hs : Inv s) : Quiet s :=
  h.elim (quiet_of_uninitialized hs) Repeating.quiet

/-- The UPDATE of a delivery of the first sample, whatever stands at the port. -/
theorem answers_update_of_repeatable {s : State} {r : Vec3} (hs : Inv s) (hr : r.allFinite = true)
    (h : Repeatable r s) : ∃ t, Repeating r t ∧ Answers .update (offered s r) t silentResponse := by
  have hoffered := inv_offered hs h.mode_ne r
  obtain ⟨t, he, hquiet, hmode, href, hdel⟩ := constantSampleKeepsQuiet (offered s r) hoffered
    ⟨h.mode_ne, rfl, hr⟩ (h.imp_right fun hrep => ⟨hrep.mode, hrep.quiet, hrep.ref.symm⟩)
  obtain ⟨t', a, he', -, hdel', hport⟩ := exec_answersOnce .update (offered s r)
  obtain rfl := Host.Outcome.next.inj (he'.symm.trans he)
  obtain rfl := List.singleton_inj.1 (List.append_cancel_left (hdel'.symm.trans hdel))
  exact ⟨t', ⟨(exec_completes he).inv hoffered, hmode, href, hquiet⟩, rfl, hport⟩

/-- `n` deliveries of the sample. -/
def deliveries (r : Vec3) (n : Nat) : List HostEvent := hostEvents (List.replicate n (sample r.c0 r.c1 r.c2)).flatten

theorem deliveries_add (r : Vec3) (m n : Nat) : deliveries r (m + n) = deliveries r m ++ deliveries r n := by
  simp only [deliveries, hostEvents, List.replicate_add, List.flatten_append, List.map_append]

theorem deliveries_one (r : Vec3) : deliveries r 1 = hostEvents (sample r.c0 r.c1 r.c2) := by simp [deliveries]

/-- `n` deliveries of `r` take the state elements of `s` to those of `t`, all their commands answered OK with data 0 and
class 0. -/
def RunsSilently (r : Vec3) (n : Nat) (s t : State) : Prop :=
  ∀ q d, Host.Core.run core (4 * n) (atPort s (deliveries r n ++ q) d) =
    .next (atPort t q (d ++ List.replicate (4 * n) silentResponse))

theorem RunsSilently.trans {r : Vec3} {m n : Nat} {s t u : State} (hst : RunsSilently r m s t)
    (htu : RunsSilently r n t u) : RunsSilently r (m + n) s u := by
  intro q d
  rw [deliveries_add, List.append_assoc, Nat.mul_add, run_add (hst _ d), htu, List.append_assoc,
    List.replicate_append_replicate]

theorem runsSilently_one {s : State} {r : Vec3} (hs : Inv s) (hr : r.allFinite = true) (h : Repeatable r s) :
    ∃ t, Repeating r t ∧ RunsSilently r 1 s t := by
  obtain ⟨t, ht, hu⟩ := answers_update_of_repeatable hs hr h
  obtain ⟨-, -, -, -, -, -, -, -, -, -, hclass⟩ := h.quiet hs
  have hok : okResponse s 0#64 = silentResponse := by rw [okResponse, hclass]; rfl
  refine ⟨t, ht, fun q d => ?_⟩
  rw [deliveries_one, run_delivery h.mode_ne hu, hok, List.append_assoc]
  rfl

/-- The first delivery captures the reference, and every later one repeats it. -/
theorem runsSilently_succ {r : Vec3} (hr : r.allFinite = true) (n : Nat) {s : State} (hs : Inv s)
    (h : Repeatable r s) : ∃ t, Repeating r t ∧ RunsSilently r (n + 1) s t := by
  induction n with
  | zero => exact runsSilently_one hs hr h
  | succ n ih =>
    obtain ⟨t, ht, hrun⟩ := ih
    obtain ⟨u, hu, hlast⟩ := runsSilently_one ht.inv hr (.inr ht)
    exact ⟨u, hu, hrun.trans hlast⟩

/-- Settles O42, by the number of deliveries. -/
theorem constantStreamIsSilent : Obligations.ConstantStreamIsSilent := by
  intro s r n hs hm hr hp
  have hport : atPort s (deliveries r n ++ []) s.delivered = s := by
    rw [List.append_nil, show deliveries r n = s.pending from hp.symm]
    rfl
  cases n with
  | zero => exact ⟨s, rfl, hp, (List.append_nil _).symm, nofun⟩
  | succ n =>
    obtain ⟨t, ht, hrun⟩ := runsSilently_succ hr n hs (.inl hm)
    have hrun := hrun [] s.delivered
    rw [hport] at hrun
    exact ⟨_, hrun, rfl, rfl, fun _ => ⟨ht.quiet, ht.mode, ht.ref⟩⟩

end Sys2Proof.ClassifierRules
end

section
/-! PROOFS. The read commands (44_read_commands.md R180 to R187). `exec_read_eq_publish` brings every read but RDSTAT
under one meaning, from which the three outcomes of a read follow; the rules of the reads are these outcomes with the
value that `readValue` names. -/

namespace Sys2Proof.ReadRules

open Sys2Proof Sys2Proof.Machine Sys2Proof.Safety Sys2Proof.EncodingRules Sys2Proof.ConfigurationRules

/-! ### The outcomes of a read -/

/-- What a read answers with status OK. -/
def readValue (s : State) : Instr → W64
  | .rdsva j => s.svaAt j
  | .rdacc k => s.y0.at k
  | .rdvel k => s.v.at k
  | .rdmax => s.max30
  | .rdwin i => s.windowEntry i
  | .rdclass => s.lclass.setWidth 64
  | .rdstat => statusWord s.statusWcap s.errflags s.lclass s.svalid s.mode
  | .nop | .reset | .wrcfg _ _ | .init | .lds _ _ | .update => 0#64

/-- The index a read carries lies in its index space (20_memory.md R61, R62). -/
def inRange (s : State) : Instr → Bool
  | .rdsva j => j < 32
  | .rdacc k | .rdvel k => k < 3
  | .rdwin i => i < s.wcap
  | .rdmax | .rdclass | .rdstat | .nop | .reset | .wrcfg _ _ | .init | .lds _ _ | .update => true

theorem exec_rdstat (s : State) : exec .rdstat s = .next (answered s (readValue s .rdstat)) :=
  congrArg Host.Outcome.next (s.respond_ok_eq _)

section

variable {i : Instr} {s : State}

/-- Every read but RDSTAT publishes its value; one without an index is in range. -/
theorem exec_read_eq_publish (hi : IsRead i) (hne : i ≠ .rdstat) (s : State) :
    exec i s = publish s (inRange s i) (readValue s i) := by
  cases i with
  | rdsva | rdacc | rdvel | rdmax | rdwin | rdclass => rfl
  | rdstat => exact absurd rfl hne
  | nop | reset | wrcfg | init | lds | update => exact hi.elim

theorem exec_read_of_unconfigured (hi : IsRead i) (hne : i ≠ .rdstat) (hm : s.mode = .unconfigured) :
    exec i s = .next (refusedWith s 4) :=
  (exec_read_eq_publish hi hne s).trans (inInstance_of_unconfigured hm _)

theorem exec_read_of_not_inRange (hi : IsRead i) (hne : i ≠ .rdstat) (hm : s.mode ≠ .unconfigured)
    (h : inRange s i = false) : exec i s = .next (refusedWith s 5) :=
  calc exec i s
    _ = publish s false (readValue s i) := h ▸ exec_read_eq_publish hi hne s
    _ = .next (s.raise .badIndex) := SampleRules.inInstance_of_instance hm _
    _ = .next (refusedWith s 5) := congrArg _ (s.raise_eq _)

theorem exec_read_of_inRange (hi : IsRead i) (hne : i ≠ .rdstat) (hm : s.mode ≠ .unconfigured)
    (h : inRange s i = true) : exec i s = .next (answered s (readValue s i)) :=
  calc exec i s
    _ = publish s true (readValue s i) := h ▸ exec_read_eq_publish hi hne s
    _ = .next (s.respond statusOk (readValue s i)) := SampleRules.inInstance_of_instance hm _
    _ = .next (answered s (readValue s i)) := congrArg _ (s.respond_ok_eq _)

/-- A read whose index `k` must lie below `n`: the state test, the index test, the answer (60_exceptions.md R228). -/
theorem exec_indexedRead {k n : Nat} (hi : IsRead i) (hne : i ≠ .rdstat) (hr : inRange s i = decide (k < n)) :
    (s.mode = .unconfigured → exec i s = .next (refusedWith s 4)) ∧
    (s.mode ≠ .unconfigured → n ≤ k → exec i s = .next (refusedWith s 5)) ∧
    (s.mode ≠ .unconfigured → k < n → exec i s = .next (answered s (readValue s i))) :=
  ⟨exec_read_of_unconfigured hi hne,
    fun hm h => exec_read_of_not_inRange hi hne hm (hr.trans (decide_eq_false (Nat.not_lt.2 h))),
    fun hm h => exec_read_of_inRange hi hne hm (hr.trans (decide_eq_true h))⟩

end

/-- The word of a command as its row's number plus its index (30_encoding.md R87). -/
theorem decode_add_index {i : Instr} {base : Nat} {d : W64} (hbase : base = (opcode i).toNat * 2 ^ 24)
    (hidx : index i < 65536) (hdata : TakesData d i) : decode ⟨BitVec.ofNat 32 (base + index i), d⟩ = .ok i :=
  decode_ofNat (congrArg (· + index i) hbase) ((wellFormed_iff i).2 hidx) hdata

/-! ### RDSVA, RDACC, RDVEL -/

theorem at_eq_get (u : Vec3) {k : Nat} (h : k < 3) : u.at k = u.get ⟨k, h⟩ := dif_pos h

/-- Settles O43. -/
theorem rdsvaRule : Obligations.RdsvaRule := by
  intro s j d hj
  obtain ⟨hstate, hindex, hok⟩ := exec_indexedRead (i := .rdsva j) (s := s) trivial nofun rfl
  refine ⟨decode_add_index (i := .rdsva j) (by simp [opcode]) hj trivial, hstate, hindex, fun h hm => ⟨?_, ?_⟩⟩
  · rw [← ClassifierRules.svaAt_val s ⟨j, h⟩]
    exact hok hm h
  · rintro ⟨-, -, ⟨hsva, -⟩, -⟩
    exact hsva ⟨j, h⟩

/-- Settles O44. -/
theorem rdaccRule : Obligations.RdaccRule := by
  intro s k d hk
  obtain ⟨hstate, hindex, hok⟩ := exec_indexedRead (i := .rdacc k) (s := s) trivial nofun rfl
  exact ⟨decode_add_index (i := .rdacc k) (by simp [opcode]) hk trivial, hstate, hindex,
    fun h hm => at_eq_get s.y0 h ▸ hok hm h⟩

/-- Settles O45. -/
theorem rdvelRule : Obligations.RdvelRule := by
  intro s k d hk
  obtain ⟨hstate, hindex, hok⟩ := exec_indexedRead (i := .rdvel k) (s := s) trivial nofun rfl
  exact ⟨decode_add_index (i := .rdvel k) (by simp [opcode]) hk trivial, hstate, hindex,
    fun h hm => at_eq_get s.v h ▸ hok hm h⟩

/-! ### RDMAX -/

/-- The fold of R167 is one of the window's entries and below none. -/
theorem windowMax_isMaximum {win : Memory} {wcap : Nat} (hpos : 0 < wcap) (hcells : ∀ c ∈ win, NonNegative c.2) :
    (∃ i, i < wcap ∧ windowMax win wcap = win.read i) ∧ ∀ i, i < wcap → flt (windowMax win wcap) (win.read i) = false :=
  ⟨StateRules.windowMax_mem win hpos, fun _ => ClassifierRules.foldl_fmax_not_flt fun k _ =>
    ClassifierRules.isFinite_of_nonNegative (StateRules.read_nonNegative hcells k)⟩

/-- Settles O46: outside UNCONFIGURED the invariant keeps MAX30 at the fold of R167. -/
theorem rdmaxRule : Obligations.RdmaxRule := by
  refine ⟨fun _ => decode_word rfl rfl trivial, fun s => ⟨exec_read_of_unconfigured trivial nofun,
    fun hm => exec_read_of_inRange trivial nofun hm rfl, fun hm hs => ?_⟩⟩
  obtain ⟨-, -, ⟨-, -, hcells⟩, hwindow, -⟩ := hs
  obtain ⟨hptr, hmax, -⟩ := hwindow hm
  rw [hmax]
  exact windowMax_isMaximum (Nat.zero_lt_of_lt hptr) hcells

/-! ### RDWIN -/

/-- Only UPDATE, INIT and RESET write WIN, by the ways a command can end. -/
theorem window_written {i : Instr} {s t : State} (h : exec i s = .next t) (hne : t.win ≠ s.win) :
    i = .update ∨ i = .init ∨ i = .reset := by
  cases StateRules.exec_completes h with
  | answered | refused | wrcfg | lds | dropped => exact absurd rfl hne
  | reset => exact .inr (.inr rfl)
  | init => exact .inr (.inl rfl)
  | ticked => exact .inl rfl

/-- Settles O47. -/
theorem rdwinRule : Obligations.RdwinRule :=
  ⟨fun _ i _ hi => ⟨decode_add_index (i := .rdwin i) (by simp [opcode]) hi trivial,
      exec_indexedRead trivial nofun rfl⟩,
    fun _ _ _ => window_written⟩

/-! ### RDCLASS -/

/-- R168 has five classes. -/
theorem classify_le (m : W64) : (classify m).toNat ≤ 4 := by
  unfold classify
  split_ifs <;> decide

/-- Settles O49: outside UNCONFIGURED the invariant keeps LCLASS at the class of MAX30. -/
theorem rdclassRule : Obligations.RdclassRule := by
  refine ⟨fun _ => decode_word rfl rfl trivial, fun s => ⟨exec_read_of_unconfigured trivial nofun,
    fun hm => exec_read_of_inRange trivial nofun hm rfl, fun hm hs => ?_⟩⟩
  obtain ⟨-, -, -, hwindow, -⟩ := hs
  obtain ⟨-, -, hclass⟩ := hwindow hm
  rw [hclass]
  exact classify_le s.max30

/-! ### RDSTAT -/

/-- The fields of the status word below WCAP: above the lowest, each drops the fields under it. -/
theorem statusWord_fields (wcap : BitVec 32) (flags : BitVec 8) (cls valid : BitVec 3) (mode : Mode) :
    (statusWord wcap flags cls valid mode).extractLsb' 0 2 = mode.code ∧
    (statusWord wcap flags cls valid mode).extractLsb' 2 3 = valid ∧
    (statusWord wcap flags cls valid mode).extractLsb' 5 3 = cls ∧
    (statusWord wcap flags cls valid mode).extractLsb' 8 8 = flags ∧
    (statusWord wcap flags cls valid mode).extractLsb' 16 16 = 0#16 := by
  have drop {v w start len : Nat} {hi : BitVec v} {lo : BitVec w} {x : BitVec len} (h : w ≤ start)
      (hx : hi.extractLsb' (start - w) len = x) : (hi ++ lo).extractLsb' start len = x :=
    (BitVec.extractLsb'_append_eq_of_le h).trans hx
  have lowest {v w : Nat} {hi : BitVec v} {lo : BitVec w} : (hi ++ lo).extractLsb' 0 w = lo :=
    BitVec.extractLsb'_append_eq_right
  exact ⟨lowest, drop (by decide) lowest, drop (by decide) (drop (by decide) lowest),
    drop (by decide) (drop (by decide) (drop (by decide) lowest)),
    drop (by decide) (drop (by decide) (drop (by decide) (drop (by decide) lowest)))⟩

theorem statusWcap_toNat (s : State) :
    s.statusWcap.toNat = if s.mode = .unconfigured then 0 else (s.cfg.get 7).toNat % 2 ^ 32 := by
  unfold State.statusWcap
  split
  · rfl
  · exact StateRules.wcap_eq s

/-- Settles O50, field by field. -/
theorem rdstatRule : Obligations.RdstatRule := by
  refine ⟨fun _ => decode_word rfl rfl trivial, fun s => ⟨_, exec_rdstat s, ?_⟩⟩
  obtain ⟨hmode, hvalid, hcls, hflags, hzero⟩ :=
    statusWord_fields s.statusWcap s.errflags s.lclass s.svalid s.mode
  have hwcap := PseudoRules.statusWord_wcap s.statusWcap s.errflags s.lclass s.svalid s.mode
  refine ⟨(congrArg BitVec.toNat hmode).trans ?_, hvalid, hcls, hflags, hzero,
    (congrArg BitVec.toNat hwcap).trans (statusWcap_toNat s)⟩
  cases s.mode <;> rfl

/-! ### Repetition (R187 (a), 20_memory.md R65) -/

theorem inRange_refusedWith (i : Instr) (s : State) (n : Nat) : inRange (refusedWith s n) i = inRange s i := by
  cases i <;> rfl

theorem inRange_answered (i : Instr) (s : State) (d : W64) : inRange (answered s d) i = inRange s i := by
  cases i <;> rfl

theorem readValue_answered (i : Instr) (s : State) (d : W64) : readValue (answered s d) i = readValue s i := by
  cases i <;> rfl

/-- A read answers its value or ends with code 4 or 5, and the state it leaves gives the same outcome again. -/
theorem exec_read_twice {i : Instr} (hi : IsRead i) (s : State) :
    (exec i s = .next (answered s (readValue s i)) ∧
      exec i (answered s (readValue s i)) = .next (answered (answered s (readValue s i)) (readValue s i))) ∨
    ∃ n, (n = 4 ∨ n = 5) ∧ exec i s = .next (refusedWith s n) ∧
      exec i (refusedWith s n) = .next (refusedWith (refusedWith s n) n) := by
  obtain rfl | hne := eq_or_ne i .rdstat
  · exact .inl ⟨exec_rdstat s, exec_rdstat _⟩
  by_cases hm : s.mode = .unconfigured
  · exact .inr ⟨4, .inl rfl, exec_read_of_unconfigured hi hne hm,
      exec_read_of_unconfigured (s := refusedWith s 4) hi hne hm⟩
  cases hr : inRange s i with
  | true =>
    have hagain := exec_read_of_inRange hi hne (s := answered s (readValue s i)) hm ((inRange_answered i s _).trans hr)
    rw [readValue_answered] at hagain
    exact .inl ⟨exec_read_of_inRange hi hne hm hr, hagain⟩
  | false =>
    exact .inr ⟨5, .inr rfl, exec_read_of_not_inRange hi hne hm hr,
      exec_read_of_not_inRange hi hne (s := refusedWith s 5) hm ((inRange_refusedWith i s 5).trans hr)⟩

/-! ### The values (R187 (c), (f)) -/

theorem isFinite_zero : isFinite 0#64 = true := by decide

theorem isFinite_at {u : Vec3} (h : u.allFinite = true) (k : Nat) : isFinite (u.at k) = true := by
  unfold Vec3.at
  split
  · exact (Vec3.allFinite_iff u).1 h _
  · exact isFinite_zero

theorem zero_at (k : Nat) : Vec3.zero.at k = Config.posZero := by
  unfold Vec3.at
  split
  · exact Vec3.get_zero _
  · rfl

/-- Every value the invariant keeps finite; a class is too small to have the exponent of an infinity. -/
theorem readValue_finite {i : Instr} {s : State} (hs : Inv s) (hne : i ≠ .rdstat) :
    isFinite (readValue s i) = true := by
  obtain ⟨-, ⟨-, -, -, -, hy0, -, hv, -⟩, ⟨hsva, hmax, hcells⟩, -⟩ := hs
  cases i with
  | rdsva j =>
    rw [readValue, State.svaAt]
    split
    · exact ClassifierRules.isFinite_of_nonNegative (hsva _)
    · exact isFinite_zero
  | rdacc k => exact isFinite_at hy0 k
  | rdvel k => exact isFinite_at hv k
  | rdmax => exact ClassifierRules.isFinite_of_nonNegative hmax
  | rdwin j => exact ClassifierRules.isFinite_of_nonNegative (StateRules.read_nonNegative hcells _)
  | rdclass =>
    have hclass : ∀ c : BitVec 3, isFinite (c.setWidth 64) = true := by decide
    exact hclass s.lclass
  | rdstat => exact absurd rfl hne
  | nop | reset | wrcfg | init | lds | update => exact isFinite_zero

/-- Before the first tick every value a read but RDSTAT publishes is at its reset value (10_state.md R39 (e)). -/
theorem readValue_eq_zero {i : Instr} {s : State} (h : RunningZero s) (hne : i ≠ .rdstat) : readValue s i = 0#64 := by
  obtain ⟨-, -, -, -, hy0, -, hv, -, hsva, hwin, -, hmax, hclass⟩ := h
  cases i with
  | rdsva j =>
    rw [readValue, State.svaAt, hsva]
    split
    · exact Table.get_fill _ _
    · rfl
  | rdacc k => exact (congrArg (Vec3.at · k) hy0).trans (zero_at k)
  | rdvel k => exact (congrArg (Vec3.at · k) hv).trans (zero_at k)
  | rdmax => exact hmax
  | rdwin j => exact congrArg (Memory.read · _) hwin
  | rdclass => exact congrArg (BitVec.setWidth 64) hclass
  | rdstat => exact absurd rfl hne
  | nop | reset | wrcfg | init | lds | update => rfl

/-- The response word of code 4 or 5 is no OK (30_encoding.md R81). -/
theorem statusOf_refused_ne_zero {n : Nat} (hn : n = 4 ∨ n = 5) (c : BitVec 3) (d : W64) :
    statusOf ⟨BitVec.ofNat 32 (2 ^ 24 * n) ||| c.setWidth 32, d⟩ ≠ 0 := by
  revert c
  obtain rfl | rfl := hn <;> simp only [statusOf] <;> decide

/-- Settles O51: an answered read publishes its value, a refused one data 0. -/
theorem readsChangeNothing : Obligations.ReadsChangeNothing := by
  intro i s t hi he
  obtain ⟨hfirst, hagain⟩ | ⟨n, hn, hfirst, hagain⟩ := exec_read_twice hi s <;> rw [hfirst] at he <;> cases he
  · exact ⟨_, rfl, fun _ => rfl, ⟨_, hagain, rfl⟩,
      fun ⟨_, _, _, _, hzero, _⟩ hm hne => readValue_eq_zero (hzero (by rw [hm]; nofun)) hne,
      fun hs hne => readValue_finite hs hne⟩
  · exact ⟨_, rfl, fun hok => absurd hok (statusOf_refused_ne_zero hn s.lclass 0#64), ⟨_, hagain, rfl⟩,
      fun _ _ _ => rfl, fun _ _ => isFinite_zero⟩

end Sys2Proof.ReadRules
end

section
/-! PROOFS. The host's table against the block's views of it (45_host_coefficient_contract.md R207, 10_state.md R24 to
R28). The block finds a matrix element at `oaIndex` or `obIndex`; the host recovers channel, matrix, row and column from
an index by division. The two meet in `entry_oaIndex` and `entry_obIndex`. -/

namespace Sys2Proof.HostRules

open Sys2Proof Sys2Proof.Machine

theorem mat2_ext_get {a b : Mat2} (h : ∀ r c, a.get r c = b.get r c) : a = b := by
  cases a
  cases b
  rw [Mat2.mk.injEq]
  exact ⟨h 0 0, h 0 1, h 1 0, h 1 1⟩

/-! ### What the host writes to each index (R207) -/

section

variable (c : Coefficients)

theorem entry_wcap : c.entry 7 = valueU c.wcap := rfl

/-- The host's division of an index from 8 on gives back channel `j`, half `m` of the channel's eight entries (0 for OA,
1 for OB), row `r` and column `k`. -/
theorem entry_matrix {i : Fin 264} {j : Fin 32} {m r k : Fin 2}
    (hi : i.val = 8 + 8 * j.val + 4 * m.val + 2 * r.val + k.val) :
    c.entry i = ((if m = 0 then c.oa else c.ob).get j).get r k := by
  have hchannel : (i.val - 8) / 8 = j := by omega
  have hrow : (i.val - 8) % 4 / 2 = r := by omega
  have hcolumn : (i.val - 8) % 2 = k := by omega
  have hhalf : (i.val - 8) % 8 < 4 ↔ m = 0 := by omega
  have h3 : ¬ i.val < 3 := by omega
  have h6 : ¬ i.val < 6 := by omega
  have h7 : i.val ≠ 6 ∧ i.val ≠ 7 := by omega
  simp only [Coefficients.entry, h3, h6, h7, dite_false, if_false, hchannel, hrow, hcolumn, hhalf]
  split <;> rfl

theorem entry_oaIndex (j : Fin 32) (r k : Fin 2) : c.entry (oaIndex j r k) = (c.oa.get j).get r k :=
  entry_matrix c (m := 0) (by simp only [oaIndex]; omega)

theorem entry_obIndex (j : Fin 32) (r k : Fin 2) : c.entry (obIndex j r k) = (c.ob.get j).get r k :=
  entry_matrix c (m := 1) (by simp only [obIndex]; omega)

end

/-! ### What the block reads of it (R24 to R28) -/

/-- The 32 bits of WCAP hold a capacity that fits them (R27). -/
theorem valueU_wcapField {n : Nat} (h : n < 2 ^ 32) : ((valueU n).extractLsb' 0 32).toNat = n := by
  simp only [valueU, BitVec.extractLsb'_toNat, BitVec.toNat_ofNat, Nat.shiftRight_zero]
  omega

/-- Nothing stands above the 32 bits of WCAP. -/
theorem valueU_upper_zero {n : Nat} (h : n < 2 ^ 32) : (valueU n).toNat / 2 ^ 32 = 0 := by
  simp only [valueU, BitVec.toNat_ofNat]
  omega

section

variable {s : State} {c : Coefficients}

theorem cfg_get_of_table (h : s.cfg = c.table) (i : Fin 264) : s.cfg.get i = c.entry i := by
  rw [h, Coefficients.table, Table.get_ofFn]

theorem wcap_of_table (h : s.cfg = c.table) (hw : c.wcap < 2 ^ 32) : s.wcap = c.wcap := by
  rw [State.wcap, State.wcapField, cfg_get_of_table h, entry_wcap, valueU_wcapField hw]

theorem oa_of_table (h : s.cfg = c.table) (j : Fin 32) : s.oa j = c.oa.get j :=
  mat2_ext_get fun r k => by rw [BankRules.oa_get, cfg_get_of_table h, entry_oaIndex]

theorem ob_of_table (h : s.cfg = c.table) (j : Fin 32) : s.ob j = c.ob.get j :=
  mat2_ext_get fun r k => by rw [BankRules.ob_get, cfg_get_of_table h, entry_obIndex]

end

/-- Settles O23: below index 7 a view and the host's entry are the same index. -/
theorem hostTableMatchesViews : Obligations.HostTableMatchesViews := by
  intro s c hw h
  have hget := cfg_get_of_table h
  have hupper : (s.cfg.get 7).toNat / 2 ^ 32 = 0 := by rw [hget, entry_wcap, valueU_upper_zero hw]
  exact ⟨hget 0, hget 1, hget 2, hget 3, hget 4, hget 5, hget 6, wcap_of_table h hw, hupper, oa_of_table h,
    ob_of_table h⟩

end Sys2Proof.HostRules
end

section
/-! PROOFS. The errors (60_exceptions.md). `exec_eq_outcome` says once which error a command ends with, what it writes when
it ends with none, and what it answers; the codes of R221, the entry of R229 and the independence of ERRFLAGS are read
off it. R227's intermediates are finite because every operation that rounds hands a value that is not finite on. -/

namespace Sys2Proof.ErrorRules

open Sys2Proof Sys2Proof.Machine Sys2Proof.Safety Sys2Proof.EncodingRules

/-! ### The idle block (R236) -/

/-- Settles O7. -/
theorem idleBlockHoldsState : Obligations.IdleBlockHoldsState := fun _ => PortRules.step_idle

/-! ### Illegal packets (R224) -/

/-- The three illegal kinds of R224 are the packets in which the reserved field, the opcode or the index is wrong. -/
theorem illegalWord_iff_fields (p : Packet) :
    IllegalWord p.word ↔ p.rsv ≠ 0 ∨ (0x06 ≤ p.op ∧ p.op ≤ 0x0F) ∨ 0x17 ≤ p.op ∨
      (p.op ∈ [0x00, 0x01, 0x03, 0x05, 0x13, 0x15, 0x16] ∧ p.idx ≠ 0) := by
  rw [Packet.rsv_eq, Packet.op_eq, Packet.idx_eq]

/-- A command has an opcode of the table, and index 0 where it takes none. -/
theorem not_illegalWord_of_decode {p : Packet} {i : Instr} (h : decode p = .ok i) : ¬ IllegalWord p.word := by
  obtain ⟨hrsv, hop, hidx, -⟩ := (decode_eq_ok_iff_fields p i).1 h
  rw [illegalWord_iff_fields, hrsv, hop, hidx]
  cases i <;> simp [opcode, index]

theorem decodeNoIndex_eq_error {p : Packet} {i : Instr} {why : Illegal} (h : decodeNoIndex p i = .error why) :
    p.idx ≠ 0 := by
  unfold decodeNoIndex at h
  split at h
  · cases h
  · assumption

/-- Each way the decoder refuses a packet is one of R224's three kinds. -/
theorem illegalWord_of_decode {p : Packet} {why : Illegal} (h : decode p = .error why) : IllegalWord p.word := by
  rw [illegalWord_iff_fields]
  unfold decode at h
  split at h
  · next hrsv => exact .inl hrsv
  unfold decodeOpcode at h
  split at h
  case h_3 | h_5 | h_7 | h_8 | h_9 | h_11 => cases h
  case h_14 =>
    simp only [imp_false] at *
    omega
  all_goals
    next hop => exact .inr (.inr (.inr ⟨by simp [hop], decodeNoIndex_eq_error h⟩))

/-- Settles O4: the decoder refuses exactly the three kinds, before the state is looked at. -/
theorem illegalPacketsRefused : Obligations.IllegalPacketsRefused := by
  refine ⟨fun s p hill => ?_, fun s p hleg => ?_⟩
  · cases hd : decode p with
    | ok i => exact absurd hill (not_illegalWord_of_decode hd)
    | error why => exact (PortRules.step_illegal rfl hd).trans (congrArg _ (s.raise_eq _))
  · cases hd : decode p with
    | ok i => exact ⟨i, rfl, PortRules.step_command rfl hd⟩
    | error why => exact absurd (illegalWord_of_decode hd) hleg

/-! ### The outcome of a command (R221 to R229) -/

/-- The error a command ends with, the state test ahead of the others (R225, R228). -/
def errorOf (s : State) (i : Instr) : Option ErrorCode :=
  match i with
  | .nop | .reset | .rdstat => none
  | .wrcfg idx _ =>
    if s.mode = .unconfigured then (if idx < 264 then none else some .badIndex) else some .badState
  | .init =>
    if s.mode = .unconfigured then (if s.cfgValid then none else some .invalidConfiguration) else some .badState
  | .lds idx _ =>
    if s.mode = .unconfigured then some .badState else if idx < 3 then none else some .invalidInput
  | .update =>
    if s.mode = .unconfigured then some .badState
    else if s.sampleReady then (if s.tick.allFinite then none else some .numericFault) else some .invalidInput
  | .rdmax | .rdclass => if s.mode = .unconfigured then some .badState else none
  | .rdsva _ | .rdacc _ | .rdvel _ | .rdwin _ =>
    if s.mode = .unconfigured then some .badState else if ReadRules.inRange s i then none else some .badIndex

/-- The state elements as a command leaves them when it ends with no error. -/
def effect (s : State) : Instr → State
  | .reset => s.toReset
  | .wrcfg idx data => if h : idx < 264 then s.writeCfg ⟨idx, h⟩ data else s
  | .init => s.createInstance
  | .lds idx data => if h : idx < 3 then s.stage ⟨idx, h⟩ data else s
  | .update => s.unstage.commit s.tick
  | .nop | .rdsva _ | .rdacc _ | .rdvel _ | .rdmax | .rdwin _ | .rdclass | .rdstat => s

/-- The data a command answers when it ends with no error: a read its value, UPDATE the class it leaves. -/
def answerData (s : State) (i : Instr) : W64 :=
  match i with
  | .update => (effect s .update).lclass.setWidth 64
  | .nop | .reset | .wrcfg _ _ | .init | .lds _ _ | .rdsva _ | .rdacc _ | .rdvel _ | .rdmax | .rdwin _ | .rdclass
  | .rdstat => ReadRules.readValue s i

/-- The state an error is taken in: an UPDATE that ends with code 2 or 6 has already cleared SVALID (R229). -/
def dropSample (s : State) (i : Instr) (e : ErrorCode) : State :=
  { s with svalid := if i = .update ∧ (e.code.toNat = 2 ∨ e.code.toNat = 6) then 0b000#3 else s.svalid }

/-- The state a command leaves: the entry of its error, or its effect and an OK response. -/
def outcome (s : State) (i : Instr) : State :=
  match errorOf s i with
  | some e => refusedWith (dropSample s i e) e.code.toNat
  | none => answered (effect s i) (answerData s i)

theorem outcome_of_error {s : State} {i : Instr} {e : ErrorCode} (h : errorOf s i = some e) :
    outcome s i = refusedWith (dropSample s i e) e.code.toNat := by
  rw [outcome, h]

theorem outcome_of_ok {s : State} {i : Instr} (h : errorOf s i = none) :
    outcome s i = answered (effect s i) (answerData s i) := by
  rw [outcome, h]

theorem exec_eq_outcome (i : Instr) (s : State) : exec i s = .next (outcome s i) := by
  cases i with
  | nop => exact congrArg Host.Outcome.next (s.respond_ok_eq 0#64)
  | reset => exact ConfigurationRules.exec_reset s
  | rdstat => exact ReadRules.exec_rdstat s
  | wrcfg idx data =>
    rw [outcome, errorOf]
    split_ifs with hm h
    · rw [effect, dif_pos h]
      exact ConfigurationRules.exec_wrcfg_of_lt hm h
    · exact ConfigurationRules.exec_wrcfg_of_le hm (Nat.le_of_not_lt h)
    · exact ConfigurationRules.beforeInstance_of_instance hm _
  | init =>
    rw [outcome, errorOf]
    split_ifs with hm h
    · exact ConfigurationRules.exec_init_of_tablePasses hm ((StateRules.cfgValid_iff s).1 h)
    · exact ConfigurationRules.exec_init_of_not_tablePasses hm (mt (StateRules.cfgValid_iff s).2 h)
    · exact ConfigurationRules.beforeInstance_of_instance hm _
  | lds idx data =>
    rw [outcome, errorOf]
    split_ifs with hm h
    · exact ConfigurationRules.inInstance_of_unconfigured hm _
    · rw [effect, dif_pos h]
      exact SampleRules.exec_lds_of_lt hm h
    · exact SampleRules.exec_lds_of_le hm (Nat.le_of_not_lt h)
  | update =>
    rw [outcome, errorOf]
    split_ifs with hm hready hf
    · exact ConfigurationRules.inInstance_of_unconfigured hm _
    · rw [StateRules.sampleReady_iff] at hready
      exact (WindowRules.exec_update_of_tickAccepted ⟨⟨hm, hready⟩, hf⟩).trans (congrArg _ (State.respondClass_eq _))
    · rw [StateRules.sampleReady_iff] at hready
      exact SampleRules.exec_update_of_not_tickAccepted ⟨hm, hready⟩ fun ⟨_, h⟩ => hf h
    · rw [StateRules.sampleReady_iff] at hready
      exact SampleRules.exec_update_of_not_sampleReady hm hready
  | rdsva | rdacc | rdvel | rdwin =>
    rw [outcome, errorOf]
    split_ifs with hm h
    · exact ReadRules.exec_read_of_unconfigured trivial nofun hm
    · exact ReadRules.exec_read_of_inRange trivial nofun hm h
    · exact ReadRules.exec_read_of_not_inRange trivial nofun hm (Bool.eq_false_iff.2 h)
  | rdmax | rdclass =>
    rw [outcome, errorOf]
    split_ifs with hm
    · exact ReadRules.exec_read_of_unconfigured trivial nofun hm
    · exact ReadRules.exec_read_of_inRange trivial nofun hm rfl

/-! ### The code table (R221) -/

/-- Every command may end with OK. -/
theorem statusAllowed_ok (i : Instr) : StatusAllowed 0 i := by
  cases i <;> simp [StatusAllowed]

/-- The error of a command stands in its row of the code table. -/
theorem statusAllowed_of_errorOf {s : State} {i : Instr} {e : ErrorCode} (h : errorOf s i = some e) :
    StatusAllowed e.code.toNat i := by
  cases i with
  | nop | reset | rdstat => cases h
  | wrcfg | init | lds | update | rdsva | rdacc | rdvel | rdmax | rdwin | rdclass =>
    rw [errorOf] at h
    split_ifs at h <;> cases h
    all_goals simp [StatusAllowed, ErrorCode.code]

theorem code_pos_le (e : ErrorCode) : e.code.toNat ≠ 0 ∧ e.code.toNat ≤ 6 := by
  cases e <;> decide

theorem responseWord_toNat (st : BitVec 8) (c : BitVec 3) :
    (responseWord st c).toNat = 2 ^ 24 * st.toNat + c.toNat := by
  have hc : c.toNat < 2 ^ 3 := c.isLt
  have e : (responseWord st c).toNat = (st.toNat <<< 21 ||| 0) <<< 3 ||| c.toNat := by
    simp only [responseWord, BitVec.toNat_append, BitVec.toNat_ofNat, Nat.zero_mod]
  rw [e, Nat.or_zero, ← Nat.shiftLeft_add_eq_or_of_lt hc, Nat.shiftLeft_eq, Nat.shiftLeft_eq]
  omega

theorem statusOf_responseWord (st : BitVec 8) (c : BitVec 3) (d : W64) :
    statusOf ⟨responseWord st c, d⟩ = st.toNat := by
  have hc : c.toNat < 2 ^ 3 := c.isLt
  rw [statusOf, responseWord_toNat]
  omega


/-! ### The responses (30_encoding.md R81) -/

theorem refusedWith_delivered (s : State) (e : ErrorCode) :
    (refusedWith s e.code.toNat).delivered = s.delivered ++ [⟨responseWord e.code s.lclass, 0#64⟩] := by
  rw [← State.raise_eq, State.raise_delivered]

theorem answered_delivered (s : State) (d : W64) :
    (answered s d).delivered = s.delivered ++ [PseudoRules.okResponse s d] := by
  rw [← State.respond_ok_eq, State.respond_delivered, PseudoRules.okResponse]

theorem effect_delivered (s : State) (i : Instr) : (effect s i).delivered = s.delivered := by
  cases i with
  | wrcfg | lds =>
    rw [effect]
    split <;> rfl
  | _ => rfl

/-- No command that answers OK writes ERRFLAGS, but for RESET. -/
theorem effect_errflags {i : Instr} (hi : i ≠ .reset) (s : State) : (effect s i).errflags = s.errflags := by
  cases i with
  | reset => exact absurd rfl hi
  | wrcfg | lds =>
    rw [effect]
    split <;> rfl
  | _ => rfl

/-! ### A step on a packet -/

/-- How a step ends that takes the packet `p` off the port. -/
inductive PacketEnds (s : State) (p : Packet) : State → Prop where
  /-- The packet is no command. -/
  | illegal (why : Illegal) (hd : decode p = .error why) :
      PacketEnds s p (refusedWith s ErrorCode.illegalCommand.code.toNat)
  /-- The command ends with an error. -/
  | refused (i : Instr) (e : ErrorCode) (hd : decode p = .ok i) (he : errorOf s i = some e) :
      PacketEnds s p (refusedWith (dropSample s i e) e.code.toNat)
  /-- The command answers OK. -/
  | answered (i : Instr) (hd : decode p = .ok i) : PacketEnds s p (answered (effect s i) (answerData s i))

theorem step_packetEnds {s t : State} {p : Packet} {rest : List HostEvent} (hp : s.pending = .command p :: rest)
    (h : step s = .next t) : PacketEnds (s.accept rest) p t := by
  cases hd : decode p with
  | error why =>
    rw [PortRules.step_illegal hp hd, State.raise_eq] at h
    cases h
    exact .illegal why hd
  | ok i =>
    rw [PortRules.step_command hp hd, exec_eq_outcome] at h
    cases h
    cases he : errorOf (s.accept rest) i with
    | none => exact outcome_of_ok he ▸ .answered i hd
    | some e => exact outcome_of_error he ▸ .refused i e hd he

/-- Settles O52: the three ways a step on a packet ends. -/
theorem statusCodesRule : Obligations.StatusCodesRule := by
  intro s t p rest hp h
  cases step_packetEnds hp h with
  | illegal why hd =>
    refine ⟨_, refusedWith_delivered _ _, ?_⟩
    rw [statusOf_responseWord, hd]
    exact ⟨by decide, fun _ _ => rfl, nofun, fun _ => rfl⟩
  | refused i e hd he =>
    obtain ⟨hpos, hle⟩ := code_pos_le e
    refine ⟨_, refusedWith_delivered _ _, ?_⟩
    rw [statusOf_responseWord, hd, if_neg hpos]
    exact ⟨hle, nofun, fun _ hj => Except.ok.inj hj ▸ statusAllowed_of_errorOf he, fun _ => rfl⟩
  | answered i hd =>
    refine ⟨_, (answered_delivered _ _).trans (congrArg (· ++ _) (effect_delivered _ i)), ?_⟩
    rw [PseudoRules.statusOf_okResponse, hd]
    exact ⟨Nat.zero_le _, nofun, fun j _ => statusAllowed_ok j, fun hi => effect_errflags (fun e => hi (congrArg _ e)) _⟩

/-! ### The entry of an error (R229) -/

/-- A step on a packet that ends with a status other than 0 has taken an error. -/
theorem step_refused {s t : State} {p : Packet} {rest : List HostEvent} {r : Response}
    (hp : s.pending = .command p :: rest) (h : step s = .next t) (hr : t.delivered = s.delivered ++ [r])
    (hne : statusOf r ≠ 0) :
    ∃ e : ErrorCode, r = ⟨responseWord e.code s.lclass, 0#64⟩ ∧
      t = refusedWith { s with
        pending := rest
        svalid := if decode p = .ok .update ∧ (e.code.toNat = 2 ∨ e.code.toNat = 6) then 0b000#3 else s.svalid }
        e.code.toNat := by
  cases step_packetEnds hp h with
  | illegal why hd =>
    rw [refusedWith_delivered] at hr
    obtain rfl := List.singleton_inj.1 (List.append_cancel_left hr)
    refine ⟨.illegalCommand, rfl, ?_⟩
    rw [hd, if_neg nofun]
    rfl
  | refused i e hd he =>
    rw [refusedWith_delivered] at hr
    obtain rfl := List.singleton_inj.1 (List.append_cancel_left hr)
    refine ⟨e, rfl, ?_⟩
    simp only [hd, Except.ok.injEq]
    rfl
  | answered i hd =>
    rw [answered_delivered, effect_delivered] at hr
    obtain rfl := List.singleton_inj.1 (List.append_cancel_left hr)
    exact absurd (PseudoRules.statusOf_okResponse _ _) hne

/-! ### ERRFLAGS (10_state.md R22) -/

/-- The state with another ERRFLAGS. -/
def withFlags (s : State) (f : BitVec 8) : State := { s with errflags := f }

theorem errorOf_withFlags (s : State) (i : Instr) (f : BitVec 8) : errorOf (withFlags s f) i = errorOf s i := by
  cases i <;> rfl

/-- Only RDSTAT answers ERRFLAGS. -/
theorem answerData_withFlags {i : Instr} (hi : i ≠ .rdstat) (s : State) (f : BitVec 8) :
    answerData (withFlags s f) i = answerData s i := by
  cases i with
  | rdstat => exact absurd rfl hi
  | _ => rfl

/-- What a command writes does not depend on ERRFLAGS, but for ERRFLAGS itself. -/
theorem effect_withFlags (s : State) (i : Instr) (f : BitVec 8) :
    ∃ g, effect (withFlags s f) i = withFlags (effect s i) g := by
  cases i with
  | reset => exact ⟨0#8, rfl⟩
  | wrcfg | lds =>
    refine ⟨f, ?_⟩
    simp only [effect]
    split <;> rfl
  | _ => exact ⟨f, rfl⟩

theorem outcome_withFlags {i : Instr} (hi : i ≠ .rdstat) (s : State) (f : BitVec 8) :
    ∃ g, outcome (withFlags s f) i = withFlags (outcome s i) g := by
  cases he : errorOf s i with
  | some e =>
    rw [outcome_of_error he, outcome_of_error ((errorOf_withFlags s i f).trans he)]
    exact ⟨_, rfl⟩
  | none =>
    obtain ⟨g, hg⟩ := effect_withFlags s i f
    rw [outcome_of_ok he, outcome_of_ok ((errorOf_withFlags s i f).trans he), hg, answerData_withFlags hi]
    exact ⟨g, rfl⟩

theorem and_or_absorb {w : Nat} (a b : BitVec w) : a &&& (a ||| b) = a := by
  ext
  simp +contextual

/-- No command but RESET clears a bit of ERRFLAGS. -/
theorem outcome_keeps_flags {i : Instr} (hi : i ≠ .reset) (s : State) :
    s.errflags &&& (outcome s i).errflags = s.errflags := by
  cases he : errorOf s i with
  | some e =>
    rw [outcome_of_error he]
    exact and_or_absorb _ _
  | none =>
    rw [outcome_of_ok he]
    exact (congrArg _ (effect_errflags hi s)).trans BitVec.and_self

/-- No command sets bit 0 or bit 7: no error has code 0 or 7. -/
theorem outcome_flagsLegal {s : State} (h : FlagsLegal s) (i : Instr) : FlagsLegal (outcome s i) := by
  cases he : errorOf s i with
  | some e =>
    rw [outcome_of_error he, ← State.raise_eq]
    exact StateRules.flagsLegal_setErrFlag h e
  | none =>
    rw [outcome_of_ok he]
    obtain rfl | hi := eq_or_ne i .reset
    · exact BitVec.zero_and
    · exact (congrArg (· &&& 0x81#8) (effect_errflags hi s)).trans h

/-- Settles O53: the step by the ways it can end, the flags by the outcome of the command. -/
theorem errorEntryRule : Obligations.ErrorEntryRule := by
  refine ⟨fun s t p rest r hp h hr hne => ?_, fun i s t h => ?_⟩
  · obtain ⟨e, rfl, rfl⟩ := step_refused hp h hr hne
    rw [statusOf_responseWord]
    refine ⟨rfl, responseWord_toNat _ _, ?_⟩
    rw [responseWord_error]
    rfl
  · rw [exec_eq_outcome] at h
    cases h
    refine ⟨fun hi => outcome_keeps_flags hi s, fun hs => outcome_flagsLegal hs i, fun hi f => ?_⟩
    obtain ⟨g, hg⟩ := outcome_withFlags hi s f
    exact ⟨g, (exec_eq_outcome i _).trans (congrArg _ hg)⟩

/-! ### The intermediates of an accepted tick (R227) -/

/-- The products and partial sums t1 to t4 of a finite filter output (41_signal_conditioner.md R135). -/
theorem highPass1_intermediates {b0 b1 b2 a1 a2 x0 x1 x2 y1 y2 : W64}
    (h : isFinite (highPass1 b0 b1 b2 a1 a2 x0 x1 x2 y1 y2) = true) :
    isFinite (fmul b0 x0) = true ∧ isFinite (fadd (fmul b0 x0) (fmul b1 x1)) = true ∧
    isFinite (fadd (fadd (fmul b0 x0) (fmul b1 x1)) (fmul b2 x2)) = true ∧
    isFinite (fsub (fadd (fadd (fmul b0 x0) (fmul b1 x1)) (fmul b2 x2)) (fmul a1 y1)) = true ∧
    isFinite (fmul b1 x1) = true ∧ isFinite (fmul b2 x2) = true ∧ isFinite (fmul a1 y1) = true ∧
    isFinite (fmul a2 y2) = true := by
  obtain ⟨ht4, ha2⟩ := isFinite_fsub h
  obtain ⟨ht3, ha1⟩ := isFinite_fsub ht4
  obtain ⟨ht2, hb2⟩ := isFinite_fadd ht3
  obtain ⟨ht1, hb1⟩ := isFinite_fadd ht2
  exact ⟨ht1, ht2, ht3, ht4, hb1, hb2, ha1, ha2⟩

/-- The sum, the product and the half of a finite velocity (R137). -/
theorem integrate1_intermediates {dt v y y' : W64} (h : isFinite (integrate1 dt v y y') = true) :
    isFinite (fadd y y') = true ∧ isFinite (fmul (fadd y y') dt) = true ∧
    isFinite (fdiv (fmul (fadd y y') dt) Config.two) = true := by
  obtain ⟨-, hhalf⟩ := isFinite_fadd h
  have hprod := isFinite_fdiv hhalf
  obtain ⟨hsum, -⟩ := isFinite_fmul hprod
  exact ⟨hsum, hprod, hhalf⟩

/-- The products and half sums of a finite oscillator element (42_oscillator_bank.md R151). -/
theorem bankElement_intermediates {a0 a1 b0 b1 d v fp fc : W64}
    (h : isFinite (bankElement a0 a1 b0 b1 d v fp fc) = true) :
    isFinite (fmul a0 d) = true ∧ isFinite (fmul a1 v) = true ∧ isFinite (fmul b0 fp) = true ∧
    isFinite (fmul b1 fc) = true ∧ isFinite (fadd (fmul a0 d) (fmul a1 v)) = true ∧
    isFinite (fadd (fmul b0 fp) (fmul b1 fc)) = true := by
  obtain ⟨hstate, hforce⟩ := isFinite_fadd h
  obtain ⟨ha0, ha1⟩ := isFinite_fadd hstate
  obtain ⟨hb0, hb1⟩ := isFinite_fadd hforce
  exact ⟨ha0, ha1, hb0, hb1, hstate, hforce⟩

/-- The operands of a finite norm and their squares (R153). -/
theorem norm2_intermediates {p q : W64} (h : isFinite (norm2 p q) = true) :
    (isFinite p = true ∧ isFinite (fmul p p) = true) ∧ isFinite q = true ∧ isFinite (fmul q q) = true := by
  obtain ⟨hpp, hqq⟩ := isFinite_fadd (isFinite_fsqrt h)
  obtain ⟨hp, -⟩ := isFinite_fmul hpp
  obtain ⟨hq, -⟩ := isFinite_fmul hqq
  exact ⟨⟨hp, hpp⟩, hq, hqq⟩

/-- Settles O54: the numeric check covers the result of every chain of operations, and the tick maximum is one of the
spectrum values. -/
theorem intermediatesAreFinite : Obligations.IntermediatesAreFinite := by
  rintro s ⟨-, hf⟩
  refine ⟨fun k => ?_, fun j r k => ?_, fun j k => ?_, ?_⟩
  · obtain ⟨-, hy0, hv⟩ := ConditionerRules.stages_finite hf k
    rw [ConditionerRules.tickY0_get] at hy0
    rw [ConditionerRules.tickV_get] at hv
    obtain ⟨ht1, ht2, ht3, ht4, hb1, hb2, ha1, ha2⟩ := highPass1_intermediates hy0
    exact ⟨ht1, ht2, ht3, ht4, hb1, hb2, ha1, ha2, integrate1_intermediates hv⟩
  · obtain ⟨hosc, -⟩ := BankRules.bank_finite hf j
    have hrk := hosc r k
    rw [BankRules.tickOsc_get] at hrk
    exact bankElement_intermediates hrk
  · obtain ⟨-, hsva⟩ := BankRules.bank_finite hf j
    rw [BankRules.tickSva_get] at hsva
    obtain ⟨hx, hy⟩ := norm2_intermediates hsva
    fin_cases k
    · exact hx
    · exact hy
  · obtain ⟨j, hj⟩ := StateRules.tickMax_mem s.tickSva
    obtain ⟨-, hsva⟩ := BankRules.bank_finite hf j
    rw [hj]
    exact hsva

end Sys2Proof.ErrorRules
end

section
/-! PROOFS. Hardware reset and the table data it leaves unspecified (70_reset_and_hazards.md R250, 10_state.md R24). Where
every entry is written there is no such data; where one is not, no instance exists and the table does not pass, so no
command reads the data of CFG. `exec_blindToUnwritten` says it of a command, `run_blindToUnwritten` of a run. -/

namespace Sys2Proof.ResetRules

open Sys2Proof Sys2Proof.Machine Sys2Proof.Safety Sys2Proof.ErrorRules

/-- Settles O8. -/
theorem hardwareResetRestoresResetValues : Obligations.HardwareResetRestoresResetValues :=
  fun s rest hp => ⟨_, PortRules.step_hardwareReset hp, StateRules.atResetValues_toReset (s.accept rest), rfl, rfl, rfl⟩

/-! ### Written and unwritten entries -/

/-- The state with other data in CFG. -/
def withCfg (s : State) (c : Table W64 264) : State := { s with cfg := c }

/-- Every table entry has been written since reset. -/
def FullyWritten (s : State) : Prop := ∀ i, s.cw.get i = true

/-- An instance exists only behind a table that has been written in full. -/
def InstanceWritten (s : State) : Prop := s.mode ≠ .unconfigured → FullyWritten s

/-- The table `c` differs from CFG in the data of unwritten entries alone. -/
def AgreesWhereWritten (s : State) (c : Table W64 264) : Prop := ∀ i, s.cw.get i = true → c.get i = s.cfg.get i

/-- A meaning that does the same whatever data the unwritten entries hold, but for such data. -/
def BlindToUnwritten (k : State → Result) : Prop :=
  ∀ s t c, AgreesWhereWritten s c → InstanceWritten s → k s = .next t →
    ∃ c', k (withCfg s c) = .next (withCfg t c') ∧ AgreesWhereWritten t c'

theorem agreesWhereWritten_self (s : State) : AgreesWhereWritten s s.cfg := fun _ _ => rfl

theorem withCfg_eq_self {s : State} {c : Table W64 264} (hc : AgreesWhereWritten s c) (hw : FullyWritten s) :
    withCfg s c = s := by
  have hcfg : c = s.cfg := Table.ext fun i => hc i (hw i)
  rw [hcfg, withCfg]

theorem not_cfgValid_of_unwritten {s : State} (hw : ¬ FullyWritten s) : ¬ s.cfgValid = true := by
  rw [StateRules.cfgValid_iff]
  exact fun ⟨hall, _⟩ => hw hall

theorem AgreesWhereWritten.writeCfg {s : State} {c : Table W64 264} (hc : AgreesWhereWritten s c) (k : Fin 264)
    (data : W64) : AgreesWhereWritten (s.writeCfg k data) (c.set k data) := by
  intro i hi
  rw [State.writeCfg_cw, Table.get_set] at hi
  rw [State.writeCfg_cfg, Table.get_set, Table.get_set]
  split
  · rfl
  · next hne => exact hc i (by rwa [if_neg hne] at hi)

/-! ### A command before the table is written in full -/

section

variable {s : State} (hm : s.mode = .unconfigured) (hw : ¬ FullyWritten s)

include hm hw

/-- INIT fails at the first test of R114, and what needs an instance fails at the state test. -/
theorem errorOf_withCfg (i : Instr) (c : Table W64 264) : errorOf (withCfg s c) i = errorOf s i := by
  have hm' : (withCfg s c).mode = .unconfigured := hm
  cases i with
  | nop | reset | rdstat | wrcfg => rfl
  | init =>
    have hw' : ¬ FullyWritten (withCfg s c) := hw
    simp only [errorOf, hm, hm', not_cfgValid_of_unwritten hw, not_cfgValid_of_unwritten hw']
  | lds | update | rdsva | rdacc | rdvel | rdmax | rdwin | rdclass => simp only [errorOf, hm, hm', if_true]

/-- The commands that can answer OK before an instance exists. -/
theorem ok_cases {i : Instr} (he : errorOf s i = none) :
    i = .nop ∨ i = .reset ∨ i = .rdstat ∨ ∃ (k : Fin 264) (data : W64), i = .wrcfg k data := by
  cases i with
  | nop => exact .inl rfl
  | reset => exact .inr (.inl rfl)
  | rdstat => exact .inr (.inr (.inl rfl))
  | wrcfg idx data =>
    simp only [errorOf, hm, if_true] at he
    split at he
    · next hlt => exact .inr (.inr (.inr ⟨⟨idx, hlt⟩, data, rfl⟩))
    · cases he
  | init => simp [errorOf, hm, not_cfgValid_of_unwritten hw] at he
  | lds | update | rdsva | rdacc | rdvel | rdmax | rdwin | rdclass => simp [errorOf, hm] at he

theorem outcome_withCfg {c : Table W64 264} (hc : AgreesWhereWritten s c) (i : Instr) :
    ∃ c', outcome (withCfg s c) i = withCfg (outcome s i) c' ∧ AgreesWhereWritten (outcome s i) c' := by
  have herr := errorOf_withCfg hm hw i c
  cases he : errorOf s i with
  | some e =>
    rw [outcome_of_error he, outcome_of_error (herr.trans he)]
    exact ⟨c, rfl, hc⟩
  | none =>
    rw [outcome_of_ok he, outcome_of_ok (herr.trans he)]
    obtain rfl | rfl | rfl | ⟨k, data, rfl⟩ := ok_cases hm hw he
    · exact ⟨c, rfl, hc⟩
    · exact ⟨s.toReset.cfg, rfl, agreesWhereWritten_self s.toReset⟩
    · have hstat : (withCfg s c).statusWcap = s.statusWcap := (if_pos hm).trans (if_pos hm).symm
      refine ⟨c, ?_, hc⟩
      simp only [answerData, ReadRules.readValue, hstat]
      rfl
    · rw [effect, effect, dif_pos k.isLt, dif_pos k.isLt]
      exact ⟨c.set k data, rfl, hc.writeCfg k data⟩

end

/-! ### A command, a step, a run -/

theorem exec_blindToUnwritten (i : Instr) : BlindToUnwritten (exec i) := by
  intro s t c hc hinst h
  by_cases hw : FullyWritten s
  · exact ⟨t.cfg, (withCfg_eq_self hc hw).symm ▸ h, agreesWhereWritten_self t⟩
  · have hm : s.mode = .unconfigured := not_not.1 (mt hinst hw)
    rw [exec_eq_outcome] at h
    cases h
    obtain ⟨c', he, hc'⟩ := outcome_withCfg hm hw hc i
    exact ⟨c', (exec_eq_outcome i _).trans (congrArg _ he), hc'⟩

theorem step_blindToUnwritten : BlindToUnwritten step := by
  intro s t c hc hinst h
  obtain ⟨hp, rfl⟩ | ⟨rest, hp, rfl⟩ | ⟨p, rest, why, hp, hd, rfl⟩ | ⟨p, rest, i, hp, hd, he⟩ := StateRules.step_cases h
  · exact ⟨c, PortRules.step_idle hp, hc⟩
  · exact ⟨State.reset.cfg, PortRules.step_hardwareReset (s := withCfg s c) hp, fun _ _ => rfl⟩
  · exact ⟨c, PortRules.step_illegal (s := withCfg s c) hp hd, hc⟩
  · obtain ⟨c', he', hc'⟩ := exec_blindToUnwritten i (s.accept rest) t c hc hinst he
    exact ⟨c', (PortRules.step_command (s := withCfg s c) hp hd).trans he', hc'⟩

/-- INIT is the only way to an instance, and it tests that every entry is written (R114). -/
theorem instanceWritten_of_completes {i : Instr} {s t : State} (h : StateRules.Completes s i t)
    (hinst : InstanceWritten s) : InstanceWritten t := by
  cases h with
  | answered | refused | lds | dropped => exact hinst
  | reset => exact fun hm => absurd rfl hm
  | wrcfg k data hm => exact fun hne => absurd hm hne
  | init hm hc =>
    obtain ⟨hw, -⟩ := (StateRules.cfgValid_iff s).1 hc
    exact fun _ => hw
  | ticked ha =>
    obtain ⟨⟨hm, -⟩, -⟩ := ha
    exact fun _ => hinst hm

theorem instanceWritten_of_step {s t : State} (hinst : InstanceWritten s) (h : step s = .next t) :
    InstanceWritten t := by
  obtain ⟨-, rfl⟩ | ⟨rest, -, rfl⟩ | ⟨p, rest, why, -, -, rfl⟩ | ⟨p, rest, i, -, -, he⟩ := StateRules.step_cases h
  · exact hinst
  · exact fun hm => absurd rfl hm
  · exact hinst
  · exact instanceWritten_of_completes (s := s.accept rest) (StateRules.exec_completes he) hinst

theorem run_blindToUnwritten (n : Nat) : BlindToUnwritten (Host.Core.run core n) := by
  induction n with
  | zero =>
    intro s t c hc _ h
    cases h
    exact ⟨c, rfl, hc⟩
  | succ n ih =>
    intro s t c hc hinst h
    obtain ⟨u, hu, -⟩ := PortRules.everyStepAnswers s
    obtain ⟨c', hu', hc'⟩ := step_blindToUnwritten s u c hc hinst hu
    rw [PortRules.run_succ hu] at h
    rw [PortRules.run_succ hu']
    exact ih u t c' hc' (instanceWritten_of_step hinst hu) h

/-- Settles O17, by induction on the steps. -/
theorem unwrittenTableDataIsUnobservable : Obligations.UnwrittenTableDataIsUnobservable :=
  fun n s t c hc hinst h => run_blindToUnwritten n s t c hc hinst h

end Sys2Proof.ResetRules
end
